-- ==== Sys2Proof/Word.lean ====
section
/-! DEFINITION. The words of the D440: the 32-bit word of a port, the byte of the buffer store, the word
address of a port window, the tag of a job and the tick of the time base. -/

namespace Sys2Proof

/-- A word of a port is 32 bits (00_scope.md, "Words and bits"). -/
abbrev Word := BitVec 32

/-- A byte of the buffer store. -/
abbrev Byte := BitVec 8

/-- The word address PnA[15:2]: the port offset divided by 4, on fourteen lines (08, section 8.1). -/
abbrev WordAddr := BitVec 14

/-- A tag is 12 bits, 0 to 4095 (Table 10-2). -/
abbrev Tag := BitVec 12

/-- A count of the 1 ms time base, 0 to 4,294,967,295, wrapping (R136). -/
abbrev Tick := BitVec 32

/-- A hold limit, 0 to 4095 ms (R137). -/
abbrev HoldLimit := BitVec 12

/-- A page of the buffer store, 0 to 255 (R23). -/
abbrev Page := Fin 256

end Sys2Proof
end

