-- ==== Sys2Proof/Syntax.lean ====
section
/-! DEFINITION. The commands of the D440: one constructor of `Instr` for each row of spec/opcode_table.json, with
the operands the part receives with it (the signals of Table 8-7, the pins of section 8.5, the engine or job an
internal event names). -/

namespace Sys2Proof

/-- The four client ports. -/
inductive Port
  | a | b | c | d
  deriving DecidableEq, Repr

/-- One thing of a kind for each port. -/
structure PerPort (α : Type) where
  a : α
  b : α
  c : α
  d : α
  deriving DecidableEq, Repr

/-- The two decode engines, 0 and 1. -/
inductive EngineId
  | zero | one
  deriving DecidableEq, Repr

/-- One thing of a kind for each engine. -/
structure PerEngine (α : Type) where
  zero : α
  one  : α
  deriving DecidableEq, Repr

/-- The four input streams (Table 2-3). -/
inductive Stream
  | sys | par1 | par2 | perm
  deriving DecidableEq, Repr

/-- One thing of a kind for each stream. -/
structure PerStream (α : Type) where
  sys  : α
  par1 : α
  par2 : α
  perm : α
  deriving DecidableEq, Repr

/-- The parity signals of a write as presented: PnAP and PnWDP (R158, R159). That PnWDP[b] carries the parity of byte b is
the model's choice, for R159 and Table 8-7 give one bit for each byte and no order (log 22, DESIGN CHOICE). -/
structure WriteParity where
  addr : Bool
  data : BitVec 4
  deriving DecidableEq, Repr

/-- The commands and events of spec/opcode_table.json, in the table's order. A write of CMD carries the reserved
bits [31:8] of the word beside the code of its row. -/
inductive Instr
  | openJob (p : Port) (reserved : BitVec 24) (bus : WriteParity)
  | trigger (p : Port) (reserved : BitVec 24) (bus : WriteParity)
  | abort (p : Port) (reserved : BitVec 24) (bus : WriteParity)
  | collect (p : Port) (reserved : BitVec 24) (bus : WriteParity)
  | release (p : Port) (reserved : BitVec 24) (bus : WriteParity)
  | query (p : Port) (reserved : BitVec 24) (bus : WriteParity)
  | portReset (p : Port) (reserved : BitVec 24) (bus : WriteParity)
  | badCommand (p : Port) (code : BitVec 8) (reserved : BitVec 24) (bus : WriteParity)
  /-- `offset` is the word offset within the aperture, which chooses no position (R50). -/
  | streamWord (p : Port) (st : Stream) (offset : BitVec 10) (data : Word) (bus : WriteParity)
  | paramWrite (p : Port) (index : Fin 6) (data : Word) (bus : WriteParity)
  | settingsWrite (p : Port) (data : Word) (bus : WriteParity)
  | statusSet (p : Port) (data : Word) (bus : WriteParity)
  | statusClear (p : Port) (data : Word) (bus : WriteParity)
  | enableSet (p : Port) (data : Word) (bus : WriteParity)
  | enableClear (p : Port) (data : Word) (bus : WriteParity)
  | noticeRead (p : Port) (addrParity : Bool)
  /-- `offset` is the word offset within the 16 KiB result window (R147). -/
  | resultWindowRead (p : Port) (offset : BitVec 12) (addrParity : Bool)
  | strayWrite (p : Port) (addr : WordAddr) (data : Word) (bus : WriteParity)
  /-- A read of a stray address, or of a word that has no row of its own (log 9). -/
  | strayRead (p : Port) (addr : WordAddr) (addrParity : Bool)
  | grant
  | endOfPrime (e : EngineId)
  | endOfPass1 (e : EngineId)
  | endOfPass2 (e : EngineId)
  | endOfEvaluate (e : EngineId)
  | endOfStore (e : EngineId)
  | tick
  /-- The expiry of the job with this owner and tag. -/
  | expiry (p : Port) (tag : Tag)
  /-- `held` marks the ports with a CMD or stream write taken and not yet acknowledged (R157, R165; log 10). -/
  | deviceReset (held : PerPort Bool)
  | powerOn
  /-- `prof1` and `prof0` are the strap levels at the release (R172). -/
  | deviceResetRelease (prof1 : Bool) (prof0 : Bool)
  /-- `held`: the port's last CMD or stream write was taken and is not yet acknowledged (R129, R157; log 10). -/
  | portResetLineAssertion (p : Port) (held : Bool)
  | portResetLineRelease (p : Port)
  deriving DecidableEq, Repr

end Sys2Proof
end

