-- ==== Sys2Proof/Decode.lean ====
section
/-! DEFINITION. The decoder of the table's words. The D440 has no instruction decoder, and no row of
spec/opcode_table.json gives bits ("fields": [] in every row, and spec/98_reader.md counts 0 rows with fixed bits), so
no word spells a command (log 17). -/

namespace Sys2Proof

/-- The command that a word spells by the table's bits: none, for every word. -/
def decodeTableWord (_nbits _w : Nat) : Option Instr := none

end Sys2Proof
end

