-- ==== Sys2Proof/Config.lean ====
section
/-! DEFINITION. What the manual leaves open. "The arithmetic by which a pass refines its estimates is fixed in
the engine and is not programmable. It is not described further here" (R99): the results of a pass, the quality of
an iteration and the scaling of the soft output are free values. Each is a constant with no body, applied to exactly
what the spec says it is formed from, so that nothing in Lean can evaluate it (log 2, 3, 4). -/

namespace Sys2Proof

/-- What PASS_1 reads (R98): SYS and PAR1 at positions 0 to L - 1 through the saturated reading of R100, and the
extrinsic estimates that the last PASS_2 left, one per information value. -/
structure Pass1Input where
  k         : Nat
  sys       : List Int
  par1      : List Int
  extrinsic : List Int
  deriving DecidableEq, Repr

/-- What PASS_2 reads (R99), in permuted order: the permutation, the SYS value and the extrinsic estimate of PASS_1
at each π(j), PAR2 at positions 0 to L - 1, and SYS at positions K to L - 1. -/
structure Pass2Input where
  perm      : List Nat
  sys       : List Int
  extrinsic : List Int
  par2      : List Int
  sysTail   : List Int
  deriving DecidableEq, Repr

/-- The working values of an engine (Table 5-1): the extrinsic estimates carried from pass to pass and the a
posteriori values, each indexed by information value. A value beyond the end of a list is 0 (log 16). -/
structure WorkingValues where
  extrinsic  : List Int
  posteriori : List Int
  deriving DecidableEq, Repr

/-- FREE VALUE (log 2): the refined extrinsic estimate that PASS_1 writes for an information value. -/
opaque Config.pass1Extrinsic : Pass1Input → Nat → Int

/-- FREE VALUE (log 2): the refined extrinsic estimate that PASS_2 writes back for an information value. -/
opaque Config.pass2Extrinsic : Pass2Input → Nat → Int

/-- FREE VALUE (log 2): the a posteriori value that PASS_2 forms for an information value. -/
opaque Config.posteriori : Pass2Input → Nat → Int

/-- FREE VALUE (log 3): the engine's estimate of an iteration's quality before it is kept to 0..40 (R102). -/
opaque Config.quality : WorkingValues → Nat

/-- FREE VALUE (log 4): the scaled a posteriori value of an information value before it is saturated (R108). -/
opaque Config.softScale : WorkingValues → Nat → Int

end Sys2Proof
end

