-- ==== Sys2Proof/Machine/State.lean ====
section
/-! DEFINITION. The state of the D440 as plain data, block by block (INVENTORY.md, "State"), the ways a step could
stop, and the state right after reset. -/

namespace Sys2Proof

/-- Working values after a clear (R90, R114): every value 0. -/
def WorkingValues.cleared : WorkingValues := { extrinsic := [], posteriori := [] }

end Sys2Proof

namespace Sys2Proof.Machine

/-! ### Job table (chapter 1) -/

/-- The sharing policy read from the straps (Table 8-6). -/
inductive Profile
  | balanced | openShare | twoPort | leadPort
  deriving DecidableEq, Repr

/-- stop_rule (Table 10-2). -/
inductive StopRule
  | maxOnly | checksum | quality | either
  deriving DecidableEq, Repr

/-- checksum_kind of a live job (Table 1-2). -/
inductive ChecksumKind
  | none | c16 | c24
  deriving DecidableEq, Repr

/-- perm_source; the coefficients are present only when it is GENERATED (R4). -/
inductive PermSource
  | client
  | generated (f1 : Nat) (f2 : Nat)
  deriving DecidableEq, Repr

/-- stop_reason (Table 1-3). -/
inductive StopReason
  | checksum | quality | maxReached | permInvalid
  deriving DecidableEq, Repr

/-- The decode parameters of a job (Table 1-2). -/
structure Params where
  k                : Nat
  minIter          : Nat
  maxIter          : Nat
  stopRule         : StopRule
  checksumKind     : ChecksumKind
  requiredMatches  : Nat
  qualityThreshold : Nat
  reportQuality    : Bool
  softOutput       : Bool
  permSource       : PermSource
  autoTrigger      : Bool
  deriving DecidableEq, Repr

/-- What an engine reports at completion (R103, R110): the outcome without the job's own fields. -/
structure PendingOutcome where
  stopReason     : StopReason
  iterationsDone : Nat
  checksumOk     : Option Bool
  quality        : Option Nat
  deriving DecidableEq, Repr

/-- The outcome record (Table 1-3). -/
structure Outcome where
  stopReason     : StopReason
  iterationsDone : Nat
  checksumOk     : Option Bool
  quality        : Option Nat
  clampCount     : Nat
  engine         : EngineId
  deriving DecidableEq, Repr

/-- The state of a live job with the record fields that Table 1-1a marks for that state alone. FREE is the absence of
a record. -/
inductive JobPhase
  | staging (input : List Page)
  | queued (clamp : Nat) (input : List Page)
  | decoding (clamp : Nat) (input : List Page) (engine : EngineId)
  | aborting (clamp : Nat) (input : List Page) (engine : EngineId)
  /-- `deadline` is absent when not armed (R7). `expiryRaised`: the hold timer has raised the job's expiry and the
  job table has not yet taken it (R139; log 12). -/
  | held (outcome : Outcome) (deadline : Option Tick) (expiryRaised : Bool)
  | delivering (outcome : Outcome)
  deriving DecidableEq, Repr

/-- A live job record (Table 1-1). -/
structure Job where
  owner          : Port
  tag            : Tag
  params         : Params
  output         : List Page
  abortRequested : Bool
  phase          : JobPhase
  deriving DecidableEq, Repr

/-- A job is identified by its owner and its tag (R1). -/
structure JobId where
  owner : Port
  tag   : Tag
  deriving DecidableEq, Repr

/-! ### Staging checker (chapter 3) -/

/-- A half of a PERM word. -/
inductive Half
  | low | high
  deriving DecidableEq, Repr

/-- The first bad position: word number and half (R58). -/
structure BadPosition where
  word : Nat
  half : Half
  deriving DecidableEq, Repr

/-- The state of a staging checker (Table 3-4). `seen` has one mark for each index 0 to 8191. -/
structure Checker where
  k           : Nat
  generated   : Bool
  autoTrigger : Bool
  expected    : PerStream Nat
  received    : PerStream Nat
  clamp       : Nat
  overflow    : Bool
  parityFault : Bool
  permFault   : Bool
  firstBad    : Option BadPosition
  seen        : BitVec 8192
  deriving DecidableEq, Repr

/-- A cleared checker holds no expected counts and serves no job (R48, R67): every item at 0, clear or absent. -/
def Checker.cleared : Checker :=
  { k := 0, generated := false, autoTrigger := false, expected := ⟨0, 0, 0, 0⟩, received := ⟨0, 0, 0, 0⟩, clamp := 0,
    overflow := false, parityFault := false, permFault := false, firstBad := none, seen := 0#8192 }

/-! ### Notices and the port unit (chapters 6 to 9) -/

/-- The kinds of notice (Table 9-1). -/
inductive NoticeKind
  | done | fault | aborted | expired
  deriving DecidableEq, Repr

/-- What a DONE or FAULT notice copies from the outcome (R174). -/
structure NoticeResult where
  stopReason     : StopReason
  iterationsDone : Nat
  checksumOk     : Option Bool
  deriving DecidableEq, Repr

/-- A notice (Table 9-1); ABORTED and EXPIRED carry no result. -/
structure Notice where
  kind   : NoticeKind
  tag    : Tag
  result : Option NoticeResult
  deriving DecidableEq, Repr

/-- The four response words (R166). -/
structure Response where
  r0 : Word
  r1 : Word
  r2 : Word
  r3 : Word
  deriving DecidableEq, Repr

/-- The acknowledgement the port gave last (section 8.1): PnERR, and PnRD and PnRDP for a read. `crosses` marks a
write to CMD or a stream aperture, whose acknowledgement waits for the reference-clock side (R155). -/
inductive BusAnswer
  | none
  | wrote (crosses : Bool) (fault : Bool)
  | read (fault : Bool) (data : Word) (parity : BitVec 4)
  deriving DecidableEq, Repr

/-- The state of one port unit. Bit i of `raw` is the sticky bit at position i + 1 of STATUS (Table 10-11). -/
structure PortUnit where
  slot      : Option Tag
  checker   : Checker
  window    : Option Tag
  notices   : List Notice
  raw       : BitVec 5
  enables   : BitVec 6
  holdLimit : HoldLimit
  param     : Vector Word 6
  taint     : Bool
  resp      : Response
  resetHeld : Bool
  bus       : BusAnswer
  deriving DecidableEq, Repr

/-! ### Decode engine (chapter 5) -/

/-- The engine states (Table 5-2). -/
inductive Stage
  | idle | prime | pass1 | pass2 | evaluate | store
  deriving DecidableEq, Repr

/-- The state of one engine (Table 5-1). `bound` is also the dispatcher's binding (Table 4-2). An entry of the
permutation memory beyond the end of `permMemory` is 0 (log 15). -/
structure Engine where
  stage        : Stage
  bound        : Option JobId
  params       : Option Params
  iteration    : Nat
  streak       : Nat
  lastChecksum : Option Bool
  lastQuality  : Option Nat
  pending      : Option PendingOutcome
  abortSeen    : Bool
  permMemory   : List Nat
  work         : WorkingValues
  deriving DecidableEq, Repr

/-! ### The machine -/

/-- The contents of the buffer store: (address, byte) pairs, address 1024 × page + byte, in the canonical form of
`Memory.wf`. An unlisted byte reads 0 (R26, R40; log 11). -/
abbrev Memory := List Host.Cell

/-- The state of the D440. -/
structure State where
  /-- The device reset is asserted (R170). -/
  deviceReset : Bool
  /-- The profile sampled at the last release of the device reset (R172). -/
  profile     : Profile
  /-- The live records of the job table's 32 entries; the other entries are FREE (R1, R17; log 7). -/
  jobs        : List Job
  /-- The free page list, head first (R25). -/
  free        : List Page
  /-- The clean marker of each page (R26). -/
  clean       : BitVec 256
  /-- The bytes of the 256 pages. -/
  mem         : Memory
  /-- The ready queues, head first: the tags of each port's QUEUED jobs (R75). -/
  queues      : PerPort (List Tag)
  /-- The round-robin pointer (R78). -/
  pointer     : Port
  engines     : PerEngine Engine
  /-- The tick count of the hold timer (R136). -/
  tick        : Tick
  ports       : PerPort PortUnit
  /-- The commands that wait, first in first out (the model's own, log 17). -/
  pending     : List Instr
  deriving DecidableEq, Repr

/-- No meaning faults: the spec describes no stop of the part, and every row has an effect or is not taken in every
state (log 5, 20). The fault response of the port bus is an answer to a client and stands in `PortUnit.bus`. -/
inductive Fault
  deriving DecidableEq, Repr

/-- Why a command is refused by the model. -/
inductive Refusal
  /-- The command has no meaning yet. No arm of `exec` answers it; safe. -/
  | notModelled (mnemonic : String)
  deriving DecidableEq, Repr

/-! ### Reset -/

/-- An engine after a device reset (R114). -/
def Engine.reset : Engine :=
  { stage := .idle, bound := none, params := none, iteration := 0, streak := 0, lastChecksum := none,
    lastQuality := none, pending := none, abortSeen := false, permMemory := [], work := WorkingValues.cleared }

/-- RESP0 to RESP3 with the code NONE: all 0 (R166). -/
def Response.none : Response := { r0 := 0#32, r1 := 0#32, r2 := 0#32, r3 := 0#32 }

/-- A port unit after a device reset (Table 6-4), its reset line not held and no acknowledgement given yet. -/
def PortUnit.reset : PortUnit :=
  { slot := none, checker := Checker.cleared, window := none, notices := [], raw := 0#5, enables := 0#6,
    holdLimit := 250#12, param := Vector.replicate 6 0#32, taint := false, resp := Response.none, resetHeld := false,
    bus := .none }

/-- The machine right after the release of a device reset with both straps low and no port reset line held; the
straps and the lines are external inputs (log 1, DESIGN CHOICE). Every other value is the spec's (R21, R40, R67, R87,
R114, R136, Table 6-4). -/
def State.reset : State :=
  { deviceReset := false, profile := .balanced, jobs := [], free := List.finRange 256, clean := BitVec.allOnes 256,
    mem := [], queues := ⟨[], [], [], []⟩, pointer := .d, engines := ⟨Engine.reset, Engine.reset⟩, tick := 0#32,
    ports := ⟨PortUnit.reset, PortUnit.reset, PortUnit.reset, PortUnit.reset⟩, pending := [] }

end Sys2Proof.Machine
end

