-- ==== Sys2Proof/Machine/Flags.lean ====
section
/-! DEFINITION. The status family of a port (chapter 9, Table 10-11): the sticky bits, the live NOTICE_PENDING bit, the
enables, ENABLED_STATUS and the interrupt line. -/

namespace Sys2Proof.Machine

/-- The five sticky raw status bits (R179). -/
inductive StatusBit
  | noticeOverrun | strayWrite | strayRead | addrParity | dataParity
  deriving DecidableEq, Repr

/-- The position of a sticky bit in the status words (Table 10-11). -/
def StatusBit.position : StatusBit → Nat
  | .noticeOverrun => 1
  | .strayWrite    => 2
  | .strayRead     => 3
  | .addrParity    => 4
  | .dataParity    => 5

/-- Whether a sticky bit is set. -/
def PortUnit.has (u : PortUnit) (b : StatusBit) : Bool := u.raw.getLsbD (b.position - 1)

/-- A cause sets its bit; a bit already set stays set (R179). -/
def PortUnit.setBit (u : PortUnit) (b : StatusBit) : PortUnit :=
  { u with raw := u.raw ||| (1#5 <<< (b.position - 1)) }

/-- NOTICE_PENDING reads 1 while the notice queue holds at least one notice (R181). -/
def PortUnit.noticePending (u : PortUnit) : Bool := !u.notices.isEmpty

/-- STATUS, bits [5:0]: the five sticky bits above the live bit. -/
def PortUnit.statusBits (u : PortUnit) : BitVec 6 := u.raw ++ BitVec.ofBool u.noticePending

/-- ENABLED_STATUS, bits [5:0]: a position is 1 when its status bit is 1 and its enable is set (R183). -/
def PortUnit.enabledStatus (u : PortUnit) : BitVec 6 := u.statusBits &&& u.enables

/-- The interrupt line is asserted while ENABLED_STATUS is not 0 (R183). -/
def PortUnit.irq (u : PortUnit) : Bool := u.enabledStatus != 0#6

/-- A six-bit status word as a port word; bits [31:6] read 0 (Table 10-11). -/
def statusWord (bits : BitVec 6) : Word := bits.setWidth 32

/-- The positions [5:1] of a written status word: position 0, NOTICE_PENDING, and the reserved bits are ignored (R180,
R185). -/
def rawPositions (w : Word) : BitVec 5 := w.extractLsb' 1 5

/-- The positions [5:0] of a written enable word (R182, R185). -/
def enablePositions (w : Word) : BitVec 6 := w.extractLsb' 0 6

/-- STATUS_SET (R180). -/
def PortUnit.statusSet (u : PortUnit) (w : Word) : PortUnit := { u with raw := u.raw ||| rawPositions w }

/-- STATUS_CLEAR (R180). -/
def PortUnit.statusClear (u : PortUnit) (w : Word) : PortUnit := { u with raw := u.raw &&& ~~~(rawPositions w) }

/-- ENABLE_SET (R182). -/
def PortUnit.enableSet (u : PortUnit) (w : Word) : PortUnit := { u with enables := u.enables ||| enablePositions w }

/-- ENABLE_CLEAR (R182). -/
def PortUnit.enableClear (u : PortUnit) (w : Word) : PortUnit :=
  { u with enables := u.enables &&& ~~~(enablePositions w) }

end Sys2Proof.Machine
end

