-- ==== Sys2Proof/Machine/AddressMap.lean ====
section
/-! DEFINITION. What a word address of a port window reaches (Table 10-1), with the access kinds of Table 8-2, and
the odd parity of the port bus (R158, R159). -/

namespace Sys2Proof.Machine

/-- What a read of an address reaches. -/
inductive ReadTarget
  | ident | settings | status | enable | enabledStatus | notice
  | param (index : Fin 6)
  | resp (index : Fin 4)
  /-- The result window, with the byte offset o of R147. -/
  | window (o : Nat)
  | stray
  deriving DecidableEq, Repr

/-- What a write to an address reaches. -/
inductive WriteTarget
  | settings | statusSet | statusClear | enableSet | enableClear
  | param (index : Fin 6)
  | cmd
  | stream (st : Stream)
  | stray
  deriving DecidableEq, Repr

/-- The port offset in bytes of a word address: the word address is the offset divided by 4. -/
def byteOffset (a : WordAddr) : Nat := 4 * a.toNat

/-- The word address of a port offset. -/
def wordAddrOf (offset : Nat) : WordAddr := BitVec.ofNat 14 (offset / 4)

/-- Table 10-1, the Read column. -/
def readTarget (a : WordAddr) : ReadTarget :=
  let o := byteOffset a
  if o = 0x0000 then .ident
  else if o = 0x0004 then .settings
  else if o = 0x0008 then .status
  else if o = 0x0014 then .enable
  else if o = 0x0020 then .enabledStatus
  else if o = 0x0024 then .notice
  else if o = 0x0040 then .param 0
  else if o = 0x0044 then .param 1
  else if o = 0x0048 then .param 2
  else if o = 0x004C then .param 3
  else if o = 0x0050 then .param 4
  else if o = 0x0054 then .param 5
  else if o = 0x0070 then .resp 0
  else if o = 0x0074 then .resp 1
  else if o = 0x0078 then .resp 2
  else if o = 0x007C then .resp 3
  else if 0x8000 ≤ o ∧ o ≤ 0xBFFF then .window (o - 0x8000)
  else .stray

/-- Table 10-1, the Write column. -/
def writeTarget (a : WordAddr) : WriteTarget :=
  let o := byteOffset a
  if o = 0x0004 then .settings
  else if o = 0x000C then .statusSet
  else if o = 0x0010 then .statusClear
  else if o = 0x0018 then .enableSet
  else if o = 0x001C then .enableClear
  else if o = 0x0040 then .param 0
  else if o = 0x0044 then .param 1
  else if o = 0x0048 then .param 2
  else if o = 0x004C then .param 3
  else if o = 0x0050 then .param 4
  else if o = 0x0054 then .param 5
  else if o = 0x0060 then .cmd
  else if 0x1000 ≤ o ∧ o ≤ 0x1FFF then .stream .sys
  else if 0x2000 ≤ o ∧ o ≤ 0x2FFF then .stream .par1
  else if 0x3000 ≤ o ∧ o ≤ 0x3FFF then .stream .par2
  else if 0x4000 ≤ o ∧ o ≤ 0x4FFF then .stream .perm
  else .stray

def settingsAddr : WordAddr := wordAddrOf 0x0004
def statusSetAddr : WordAddr := wordAddrOf 0x000C
def statusClearAddr : WordAddr := wordAddrOf 0x0010
def enableSetAddr : WordAddr := wordAddrOf 0x0018
def enableClearAddr : WordAddr := wordAddrOf 0x001C
def noticeAddr : WordAddr := wordAddrOf 0x0024
def cmdAddr : WordAddr := wordAddrOf 0x0060

/-- PARAM0 to PARAM5 stand at 0x0040 to 0x0054. -/
def paramAddr (index : Fin 6) : WordAddr := wordAddrOf (0x0040 + 4 * index.val)

/-- The first offset of a stream's aperture. -/
def apertureBase : Stream → Nat
  | .sys  => 0x1000
  | .par1 => 0x2000
  | .par2 => 0x3000
  | .perm => 0x4000

/-- A word offset within a stream's 4 KiB aperture (R50). -/
def apertureAddr (st : Stream) (offset : BitVec 10) : WordAddr :=
  wordAddrOf (apertureBase st + 4 * offset.toNat)

/-- A word offset within the result window (R147). -/
def windowAddr (offset : BitVec 12) : WordAddr := wordAddrOf (0x8000 + 4 * offset.toNat)

/-- Whether the number of ones is odd. -/
def oddOnes {w : Nat} (x : BitVec w) : Bool :=
  (List.range w).foldl (fun acc i => acc ^^ x.getLsbD i) false

/-- The address parity bit is odd parity over the fourteen word-address lines and the direction line together
(R158); the direction line is high for a write (Table 8-7). -/
def addrParityGood (a : WordAddr) (isWrite : Bool) (parity : Bool) : Bool :=
  oddOnes a ^^ isWrite ^^ parity

/-- Byte b of a word; byte 0 is the least significant. -/
def byteOf (w : Word) (b : Nat) : Byte := w.extractLsb' (8 * b) 8

/-- A byte and its parity bit together hold an odd number of ones (R159). That bit b of the four is the bit of byte b is the
model's choice (log 22). -/
def byteParityGood (w : Word) (parity : BitVec 4) (b : Nat) : Bool :=
  oddOnes (byteOf w b) ^^ parity.getLsbD b

/-- When any of the four data parity bits is wrong, the whole word is bad (R159). -/
def dataParityGood (w : Word) (parity : BitVec 4) : Bool :=
  byteParityGood w parity 0 && byteParityGood w parity 1 && byteParityGood w parity 2 && byteParityGood w parity 3

/-- The odd byte parity that the part generates for read data (R159), the bit of byte b at PnRDP[b], which is the model's
choice (log 22). -/
def generatedParity (w : Word) : BitVec 4 :=
  BitVec.ofBool (!oddOnes (byteOf w 3)) ++ BitVec.ofBool (!oddOnes (byteOf w 2)) ++
  BitVec.ofBool (!oddOnes (byteOf w 1)) ++ BitVec.ofBool (!oddOnes (byteOf w 0))

end Sys2Proof.Machine
end

