-- ==== Sys2Proof/Machine/Operands.lean ====
section
/-! DEFINITION. The operands and results of commands as words: the sizes of a job (Conventions), the profile's ceilings
(Tables 1-7, 2-2, 8-6), the OPEN parameter record (Tables 3-1, 3-3, 10-3), and the layouts of every word a client reads
(Tables 10-2 to 10-12). -/

namespace Sys2Proof

/-! ### Access to one of four ports, two engines, four streams -/

def PerPort.get {α : Type} (x : PerPort α) : Port → α
  | .a => x.a
  | .b => x.b
  | .c => x.c
  | .d => x.d

def PerPort.set {α : Type} (x : PerPort α) (p : Port) (v : α) : PerPort α :=
  match p with
  | .a => { x with a := v }
  | .b => { x with b := v }
  | .c => { x with c := v }
  | .d => { x with d := v }

def PerEngine.get {α : Type} (x : PerEngine α) : EngineId → α
  | .zero => x.zero
  | .one  => x.one

def PerEngine.set {α : Type} (x : PerEngine α) (e : EngineId) (v : α) : PerEngine α :=
  match e with
  | .zero => { x with zero := v }
  | .one  => { x with one := v }

def PerStream.get {α : Type} (x : PerStream α) : Stream → α
  | .sys  => x.sys
  | .par1 => x.par1
  | .par2 => x.par2
  | .perm => x.perm

def PerStream.set {α : Type} (x : PerStream α) (st : Stream) (v : α) : PerStream α :=
  match st with
  | .sys  => { x with sys := v }
  | .par1 => { x with par1 := v }
  | .par2 => { x with par2 := v }
  | .perm => { x with perm := v }

/-! ### Encodings of ports, engines and streams -/

/-- The port letter field: 0 A, 1 B, 2 C, 3 D (Table 10-12). -/
def Port.letter : Port → BitVec 2
  | .a => 0
  | .b => 1
  | .c => 2
  | .d => 3

/-- Engine (Table 10-2). -/
def EngineId.code : EngineId → BitVec 1
  | .zero => 0
  | .one  => 1

end Sys2Proof

namespace Sys2Proof.Machine

/-- The stream numbers of Table 2-3. -/
def streamNumber : Stream → Nat
  | .sys  => 0
  | .par1 => 1
  | .par2 => 2
  | .perm => 3

/-! ### Sizes of a job (Conventions, R27) -/

/-- W_s = ⌈(K + 4)/4⌉. -/
def softWords (k : Nat) : Nat := (k + 4 + 3) / 4

/-- W_p = ⌈K/2⌉ for a CLIENT permutation and 0 for a GENERATED one. -/
def permWords (k : Nat) (generated : Bool) : Nat := if generated then 0 else (k + 1) / 2

/-- H = 4 × ⌈K/32⌉ bytes. -/
def hardBytes (k : Nat) : Nat := 4 * ((k + 31) / 32)

/-- S = 4 × ⌈K/4⌉ bytes, or 0 when soft output is not asked for. -/
def softBytes (k : Nat) (softOutput : Bool) : Nat := if softOutput then 4 * ((k + 3) / 4) else 0

/-- input_pages = ⌈(3 × 4 × W_s + 4 × W_p) / 1024⌉. -/
def inputPages (k : Nat) (generated : Bool) : Nat :=
  (3 * 4 * softWords k + 4 * permWords k generated + 1023) / 1024

/-- output_pages = ⌈(H + S) / 1024⌉. -/
def outputPages (k : Nat) (softOutput : Bool) : Nat :=
  (hardBytes k + softBytes k softOutput + 1023) / 1024

/-- Whether perm_source is GENERATED. -/
def PermSource.isGenerated : PermSource → Bool
  | .client => false
  | .generated _ _ => true

/-- H + S of a job. -/
def Params.outputLength (pr : Params) : Nat := hardBytes pr.k + softBytes pr.k pr.softOutput

/-! ### Profiles -/

/-- The profile that the straps select, PROF1 the high bit (R172). -/
def profileOf (prof1 prof0 : Bool) : Profile :=
  match prof1, prof0 with
  | false, false => .balanced
  | false, true  => .openShare
  | true,  false => .twoPort
  | true,  true  => .leadPort

/-- Profile 0 to 3. -/
def Profile.number : Profile → BitVec 2
  | .balanced  => 0
  | .openShare => 1
  | .twoPort   => 2
  | .leadPort  => 3

/-- Entry ceilings (Table 1-7); a disabled port has 0. -/
def Profile.entryCeiling : Profile → Port → Nat
  | .balanced,  _  => 8
  | .openShare, _  => 16
  | .twoPort,   .a => 16
  | .twoPort,   .b => 16
  | .twoPort,   .c => 0
  | .twoPort,   .d => 0
  | .leadPort,  .a => 16
  | .leadPort,  .b => 8
  | .leadPort,  .c => 8
  | .leadPort,  .d => 8

/-- Page ceilings (Table 2-2); a disabled port has 0. -/
def Profile.pageCeiling : Profile → Port → Nat
  | .balanced,  _  => 64
  | .openShare, _  => 128
  | .twoPort,   .a => 128
  | .twoPort,   .b => 128
  | .twoPort,   .c => 0
  | .twoPort,   .d => 0
  | .leadPort,  .a => 128
  | .leadPort,  .b => 64
  | .leadPort,  .c => 64
  | .leadPort,  .d => 64

/-- Ports C and D are disabled in profile 2 (R172). -/
def Profile.enables : Profile → Port → Bool
  | .twoPort, .c => false
  | .twoPort, .d => false
  | _, _ => true

/-! ### The OPEN parameter record -/

/-- An unsigned field [lo + width - 1 : lo] of a word. -/
def field (w : Word) (lo width : Nat) : Nat := (w.extractLsb' lo width).toNat

/-- A one-bit yes/no field. -/
def flag (w : Word) (bit : Nat) : Bool := w.getLsbD bit

/-- PARAM0[11:0], the tag field (Table 10-3). -/
def tagField (param0 : Word) : Tag := param0.extractLsb' 0 12

/-- The OPEN parameter record as its fields carry it (Tables 3-1 and 10-3), before any check. -/
structure OpenRecord where
  tag              : Tag
  k                : Nat
  minIter          : Nat
  maxIter          : Nat
  stopRule         : Nat
  checksumKind     : Nat
  requiredMatches  : Nat
  qualityThreshold : Nat
  reportQuality    : Bool
  softOutput       : Bool
  generated        : Bool
  autoTrigger      : Bool
  f1               : Nat
  f2               : Nat
  deriving DecidableEq, Repr

/-- Table 10-3. Reserved bits, PARAM4 and PARAM5 are not read (R41). -/
def openRecord (param : Vector Word 6) : OpenRecord :=
  { tag := tagField param[0]
    k := field param[1] 0 14
    minIter := field param[1] 16 4
    maxIter := field param[1] 20 4
    stopRule := field param[1] 24 2
    checksumKind := field param[1] 26 2
    requiredMatches := field param[1] 28 3
    qualityThreshold := field param[2] 0 6
    reportQuality := flag param[2] 8
    softOutput := flag param[2] 9
    generated := flag param[2] 10
    autoTrigger := flag param[2] 11
    f1 := field param[3] 0 13
    f2 := field param[3] 16 13 }

/-- The reason of the first condition of Table 3-3 that fails, in the order of the table (R43). -/
def OpenRecord.badReason (r : OpenRecord) : Option (BitVec 4) :=
  if r.k < 40 ∨ 8192 < r.k then some 1
  else if r.generated ∧ r.k % 8 ≠ 0 then some 2
  else if r.maxIter = 0 then some 3
  else if r.maxIter < r.minIter then some 4
  else if r.checksumKind = 3 ∨ r.requiredMatches = 0 ∨ 4 < r.requiredMatches then some 5
  else if (r.stopRule = 1 ∨ r.stopRule = 3) ∧ r.checksumKind = 0 then some 6
  else if 40 < r.qualityThreshold then some 7
  else if r.generated ∧ (r.f1 = 0 ∨ r.k ≤ r.f1 ∨ r.k ≤ r.f2) then some 8
  else none

/-- stop_rule (Table 10-2). -/
def stopRuleOf : Nat → StopRule
  | 0 => .maxOnly
  | 1 => .checksum
  | 2 => .quality
  | _ => .either

/-- checksum_kind (Table 10-2). Code 3 is refused before this is read (R43). -/
def checksumKindOf : Nat → ChecksumKind
  | 0 => .none
  | 1 => .c16
  | _ => .c24

/-- The params copied into the record (R4); with CLIENT, f1 and f2 are not copied (R43). -/
def OpenRecord.params (r : OpenRecord) : Params :=
  { k := r.k, minIter := r.minIter, maxIter := r.maxIter, stopRule := stopRuleOf r.stopRule,
    checksumKind := checksumKindOf r.checksumKind, requiredMatches := r.requiredMatches,
    qualityThreshold := r.qualityThreshold, reportQuality := r.reportQuality, softOutput := r.softOutput,
    permSource := if r.generated then .generated r.f1 r.f2 else .client, autoTrigger := r.autoTrigger }

/-! ### Response codes and command codes -/

/-- The response codes (Table 8-5). -/
inductive RespCode
  | none | ok | pending | accepted | noJob | dupTag | quotaEntries | quotaPages | noEntry | noSpace | param
  | stagingBusy | wrongState | windowBusy | short | over | permBad | parityFault | cmdParity | badCommand
  deriving DecidableEq, Repr

/-- The values of Table 8-5. -/
def RespCode.value : RespCode → BitVec 5
  | .none         => 0
  | .ok           => 1
  | .pending      => 2
  | .accepted     => 3
  | .noJob        => 4
  | .dupTag       => 5
  | .quotaEntries => 6
  | .quotaPages   => 7
  | .noEntry      => 8
  | .noSpace      => 9
  | .param        => 10
  | .stagingBusy  => 11
  | .wrongState   => 12
  | .windowBusy   => 13
  | .short        => 14
  | .over         => 15
  | .permBad      => 16
  | .parityFault  => 17
  | .cmdParity    => 18
  | .badCommand   => 19

/-- RESP0 (Table 10-5): code [4:0], echoed command code [15:8], echoed tag [27:16]. -/
def resp0 (code : RespCode) (cmd : BitVec 8) (tag : Tag) : Word :=
  0#4 ++ tag ++ cmd ++ 0#3 ++ code.value

/-- The CMD word: code [7:0], reserved [31:8] (Table 10-4). -/
def cmdWord (reserved : BitVec 24) (code : BitVec 8) : Word := reserved ++ code

/-! ### Field encodings -/

def bit (b : Bool) : BitVec 1 := BitVec.ofBool b

/-- Job state (Table 10-2). -/
def JobPhase.code : JobPhase → BitVec 3
  | .staging ..    => 1
  | .queued ..     => 2
  | .decoding ..   => 3
  | .aborting ..   => 4
  | .held ..       => 5
  | .delivering .. => 6

/-- stop_reason (Table 10-2). -/
def StopReason.code : StopReason → BitVec 2
  | .checksum    => 0
  | .quality     => 1
  | .maxReached  => 2
  | .permInvalid => 3

/-- Permutation half (Table 10-2). -/
def Half.code : Half → BitVec 1
  | .low  => 0
  | .high => 1

/-- Option flags (Table 10-2): soft_output at the lowest, then report_quality, auto_trigger, perm_source. -/
def Params.optionFlags (pr : Params) : BitVec 4 :=
  bit pr.permSource.isGenerated ++ bit pr.autoTrigger ++ bit pr.reportQuality ++ bit pr.softOutput

/-- The outcome fields, bits [31:8] of RESP1 (Table 10-8). -/
def Outcome.fields (o : Outcome) : BitVec 24 :=
  0#2 ++ BitVec.ofNat 6 (o.quality.getD 0) ++ 0#3 ++ bit o.quality.isSome ++
  0#2 ++ bit (o.checksumOk.getD false) ++ bit o.checksumOk.isSome ++
  BitVec.ofNat 4 o.iterationsDone ++ 0#2 ++ o.stopReason.code

/-- A word with a state in [2:0] (Table 10-6). -/
def stateWord (ph : JobPhase) : Word := ph.code.setWidth 32

/-- clamp_count [15:0] and engine [16] (Table 10-6, COLLECT; Table 10-9). -/
def clampEngineWord (clamp : Nat) (engine : BitVec 1) : Word := 0#15 ++ engine ++ BitVec.ofNat 16 clamp

/-- RESP1 of OPEN OK: W_s [11:0], W_p [28:16]. -/
def openCountsWord (k : Nat) (generated : Bool) : Word :=
  0#3 ++ BitVec.ofNat 13 (permWords k generated) ++ 0#4 ++ BitVec.ofNat 12 (softWords k)

/-- RESP2 of OPEN: input_pages [7:0], output_pages [23:16]. -/
def openPagesWord (inPages outPages : Nat) : Word :=
  0#8 ++ BitVec.ofNat 8 outPages ++ 0#8 ++ BitVec.ofNat 8 inPages

/-- Whether a stream's received count is below its expected count. -/
def Checker.isShort (c : Checker) (st : Stream) : Bool :=
  c.received.get st < c.expected.get st

/-- The fault summary of a refused TRIGGER (Table 10-7). -/
def Checker.summaryWord (c : Checker) : Word :=
  0#24 ++ bit (c.isShort .perm) ++ bit (c.isShort .par2) ++ bit (c.isShort .par1) ++ bit (c.isShort .sys) ++
  0#1 ++ bit c.overflow ++ bit c.permFault ++ bit c.parityFault

/-- First bad word [11:0] and half [12], 0 while the permutation-fault flag is clear. -/
def Checker.firstBadField (c : Checker) : BitVec 13 :=
  match c.permFault, c.firstBad with
  | true, some pos => pos.half.code ++ BitVec.ofNat 12 pos.word
  | _, _ => 0

/-- RESP1 to RESP3 of QUERY in STAGING (Table 10-9). -/
def stagingWords (pr : Params) (ph : JobPhase) (c : Checker) : Word × Word × Word :=
  (BitVec.ofNat 12 c.received.par1 ++ BitVec.ofNat 12 c.received.sys ++ pr.optionFlags ++ 0#1 ++ ph.code,
   bit c.overflow ++ bit c.permFault ++ bit c.parityFault ++ BitVec.ofNat 13 c.received.perm ++ BitVec.ofNat 16 c.clamp,
   0#3 ++ c.firstBadField ++ 0#4 ++ BitVec.ofNat 12 c.received.par2)

/-- RESP1 to RESP3 of QUERY answered OK (Table 10-9); `c` is the owning port's staging checker, read in STAGING alone. -/
def queryWords (j : Job) (c : Checker) : Word × Word × Word :=
  let head : BitVec 8 := j.params.optionFlags ++ 0#1 ++ j.phase.code
  match j.phase with
  | .staging _ => stagingWords j.params j.phase c
  | .queued clamp _ => (0#24 ++ head, clampEngineWord clamp 0, 0)
  | .decoding clamp _ e => (0#24 ++ head, clampEngineWord clamp (e.code), 0)
  | .aborting clamp _ e => (0#24 ++ head, clampEngineWord clamp (e.code), 0)
  | .held o _ _ => (o.fields ++ head, clampEngineWord o.clampCount (o.engine.code), 0)
  | .delivering o => (o.fields ++ head, clampEngineWord o.clampCount (o.engine.code), 0)

/-- RESP1 to RESP3 of COLLECT answered OK (Table 10-6): the outcome with [7:0] 0, the clamp count and engine, and the
output length. -/
def collectWords (pr : Params) (o : Outcome) : Word × Word × Word :=
  (o.fields ++ 0#8, clampEngineWord o.clampCount (o.engine.code), BitVec.ofNat 32 pr.outputLength)

/-! ### Notice word and IDENT -/

/-- Notice kinds (Table 10-10). -/
def NoticeKind.code : NoticeKind → BitVec 3
  | .done    => 1
  | .fault   => 2
  | .aborted => 3
  | .expired => 4

/-- The NOTICE word of a popped notice (Table 10-10, R187). -/
def Notice.word (n : Notice) : Word :=
  let r := n.result
  0#4 ++ n.tag ++ 0#4 ++ BitVec.ofNat 4 ((r.map (·.iterationsDone)).getD 0) ++
  ((r.map (·.stopReason.code)).getD 0) ++
  bit (((r.bind (·.checksumOk)).getD false)) ++ bit ((r.bind (·.checksumOk)).isSome) ++ 0#1 ++ n.kind.code

/-- IDENT (Table 10-12, R188): the ceilings in units of 4 entries and 16 pages. -/
def identWord (pf : Profile) (p : Port) : Word :=
  BitVec.ofNat 4 (pf.pageCeiling p / 16) ++ BitVec.ofNat 4 (pf.entryCeiling p / 4) ++ pf.number ++ p.letter ++
  1#4 ++ 0x0440#16

end Sys2Proof.Machine
end

