-- ==== Sys2Proof/Machine/Memory.lean ====
section
/-! DEFINITION. The buffer store (chapter 2): the bytes of the 256 pages, the clean markers, the free page list, and the
contiguous areas that a job's page lists form. -/

namespace Sys2Proof.Machine

/-! ### Bytes by address -/

/-- What an unlisted byte reads as: 0. After a device reset every page is clean and reads as 0 (R26, R40; log 11). -/
def unlistedByte : Byte := 0#8

/-- The byte at an address. -/
def Memory.read : Memory → Nat → Byte
  | [], _ => unlistedByte
  | (k, v) :: rest, a => if k = a then v else Memory.read rest a

/-- Write one byte, keeping the addresses rising and no entry equal to `unlistedByte`. -/
def Memory.write : Memory → Nat → Byte → Memory
  | [], a, b => if b = unlistedByte then [] else [(a, b)]
  | (k, v) :: rest, a, b =>
    if a < k then (if b = unlistedByte then (k, v) :: rest else (a, b) :: (k, v) :: rest)
    else if a = k then (if b = unlistedByte then rest else (a, b) :: rest)
    else (k, v) :: Memory.write rest a b

/-- Remove every byte of a page, which then reads 0 throughout. -/
def Memory.clearPage (m : Memory) (pg : Page) : Memory := m.filter fun c => c.1 / 1024 != pg.val

/-- The canonical form: addresses strictly rising and no entry equal to what an unlisted address reads as. -/
abbrev Memory.wf (m : Memory) : Prop :=
  m.Pairwise (fun x y => x.1 < y.1) ∧ ∀ c ∈ m, c.2 ≠ unlistedByte

/-- The address of a byte of a page. -/
def pageAddr (pg : Page) (offset : Nat) : Nat := 1024 * pg.val + offset

/-! ### Pages with their clean markers (R26) -/

/-- The marker of one page among the 256. -/
def pageMark (pg : Page) : BitVec 256 := 1#256 <<< pg.val

def State.isClean (s : State) (pg : Page) : Bool := s.clean.getLsbD pg.val

/-- Every byte of a clean page reads as 0, whatever the page held before (R26). -/
def State.readPage (s : State) (pg : Page) (offset : Nat) : Byte :=
  if s.isClean pg then 0#8 else s.mem.read (pageAddr pg offset)

/-- A write stores its byte. The first write to a clean page leaves every other byte of it reading 0 and ends its marker;
a later write leaves the other bytes as they were (R26). -/
def State.writePage (s : State) (pg : Page) (offset : Nat) (v : Byte) : State :=
  let base := if s.isClean pg then s.mem.clearPage pg else s.mem
  { s with mem := base.write (pageAddr pg offset) v, clean := s.clean &&& ~~~(pageMark pg) }

/-! ### Areas (R34, R36) -/

/-- Offset o of an area lies in list position ⌊o/1024⌋ at byte o mod 1024. -/
def State.readArea (s : State) (pages : List Page) (o : Nat) : Byte :=
  match pages[o / 1024]? with
  | some pg => s.readPage pg (o % 1024)
  | none => 0#8

def State.writeAreaByte (s : State) (pages : List Page) (o : Nat) (v : Byte) : State :=
  match pages[o / 1024]? with
  | some pg => s.writePage pg (o % 1024) v
  | none => s

/-- Store bytes from an offset up. -/
def State.writeArea (s : State) (pages : List Page) (o : Nat) : List Byte → State
  | [] => s
  | v :: vs => State.writeArea (s.writeAreaByte pages o v) pages (o + 1) vs

/-- The word at an offset; byte o + b of the area stands in byte b of the word (R147). -/
def State.readAreaWord (s : State) (pages : List Page) (o : Nat) : Word :=
  s.readArea pages (o + 3) ++ s.readArea pages (o + 2) ++ s.readArea pages (o + 1) ++ s.readArea pages o

/-- The four bytes of a word, byte 0 first. -/
def wordBytes (w : Word) : List Byte := [byteOf w 0, byteOf w 1, byteOf w 2, byteOf w 3]

/-! ### The free list (R25, R31, R38) -/

/-- Pages returned are appended at the tail in list order (R38). -/
def State.returnPages (s : State) (pages : List Page) : State := { s with free := s.free ++ pages }

/-- Remove pages from the head of the free list and mark them clean (R31). -/
def State.takePages (s : State) (n : Nat) : State :=
  { s with free := s.free.drop n, clean := (s.free.take n).foldl (fun m pg => m ||| pageMark pg) s.clean }

end Sys2Proof.Machine
end

