-- ==== Sys2Proof/Machine/Ops.lean ====
section
/-! DEFINITION. The shared operations on the state: access to a port unit, an engine, a queue and a job record; the
counts; notices and responses; triggering a job; freeing a job; the engine's two reports; a port reset and a device
reset. Each is one event of the spec or a part of one. -/

namespace Sys2Proof.Machine

/-! ### Port units, engines, queues -/

def State.port (s : State) (p : Port) : PortUnit := s.ports.get p

def State.modPort (s : State) (p : Port) (f : PortUnit → PortUnit) : State :=
  { s with ports := s.ports.set p (f (s.ports.get p)) }

def State.engine (s : State) (e : EngineId) : Engine := s.engines.get e

def State.modEngine (s : State) (e : EngineId) (f : Engine → Engine) : State :=
  { s with engines := s.engines.set e (f (s.engines.get e)) }

def State.queue (s : State) (p : Port) : List Tag := s.queues.get p

def State.modQueue (s : State) (p : Port) (f : List Tag → List Tag) : State :=
  { s with queues := s.queues.set p (f (s.queues.get p)) }

/-- A cause sets a sticky status bit of a port (R179). -/
def State.setStatus (s : State) (p : Port) (b : StatusBit) : State := s.modPort p (·.setBit b)

/-- Whether the port's interrupt line PnIRQ is asserted (R183). -/
def State.irq (s : State) (p : Port) : Bool := (s.port p).irq

/-! ### Job records (chapter 1) -/

/-- Whether a record is the live job of that owner and tag (R1). -/
def Job.isFor (j : Job) (p : Port) (t : Tag) : Bool := j.owner == p && j.tag == t

/-- The input page list, in the states that hold one (Table 1-1a); empty elsewhere. -/
def Job.inputPages (j : Job) : List Page :=
  match j.phase with
  | .staging input | .queued _ input | .decoding _ input _ | .aborting _ input _ => input
  | .held .. | .delivering .. => []

/-- The input clamp count, in the states that hold one (Table 1-1a). -/
def Job.inputClamp (j : Job) : Option Nat :=
  match j.phase with
  | .queued clamp _ | .decoding clamp _ _ | .aborting clamp _ _ => some clamp
  | .staging .. | .held .. | .delivering .. => none

/-- The engine field, in the states that hold one (Table 1-1a). -/
def Job.engine (j : Job) : Option EngineId :=
  match j.phase with
  | .decoding _ _ e | .aborting _ _ e => some e
  | .staging .. | .queued .. | .held .. | .delivering .. => none

/-- The outcome record, in the states that hold one (Table 1-1a). -/
def Job.outcome (j : Job) : Option Outcome :=
  match j.phase with
  | .held o _ _ | .delivering o => some o
  | .staging .. | .queued .. | .decoding .. | .aborting .. => none

/-- The deadline, when armed (Table 1-1a, R7). -/
def Job.deadline (j : Job) : Option Tick :=
  match j.phase with
  | .held _ d _ => d
  | .staging .. | .queued .. | .decoding .. | .aborting .. | .delivering .. => none

/-- Every page a job holds: its input list, then its output list. -/
def Job.pages (j : Job) : List Page := j.inputPages ++ j.output

/-- The live job a command of a port finds by tag (R1). -/
def State.findJob (s : State) (p : Port) (t : Tag) : Option Job := s.jobs.find? (·.isFor p t)

def State.modJob (s : State) (p : Port) (t : Tag) (f : Job → Job) : State :=
  { s with jobs := s.jobs.map fun j => if j.isFor p t then f j else j }

/-- The entry becomes FREE: every field of the record is absent (R15). -/
def State.dropJob (s : State) (p : Port) (t : Tag) : State :=
  { s with jobs := s.jobs.filter fun j => !j.isFor p t }

/-- The live jobs of a port. -/
def State.jobsOf (s : State) (p : Port) : List Job := s.jobs.filter (·.owner == p)

/-- The port's count of live entries (R17). -/
def State.liveCount (s : State) (p : Port) : Nat := (s.jobsOf p).length

/-- The port's pages held: the total length of the lists of its live jobs (R28). -/
def State.pagesHeld (s : State) (p : Port) : Nat := ((s.jobsOf p).map (·.pages.length)).sum

/-! ### Responses and notices -/

/-- An event that answers a command writes all four response words (R186). -/
def State.respond (s : State) (p : Port) (code : RespCode) (cmd : BitVec 8) (tag : Tag) (r1 r2 r3 : Word) : State :=
  s.modPort p fun u => { u with resp := { r0 := resp0 code cmd tag, r1 := r1, r2 := r2, r3 := r3 } }

/-- The push of a notice (R175): discarded while the reset line is held, discarded with NOTICE_OVERRUN set when the
queue holds 16, appended at the tail otherwise. -/
def PortUnit.pushNotice (u : PortUnit) (n : Notice) : PortUnit :=
  if u.resetHeld then u
  else if 16 ≤ u.notices.length then u.setBit .noticeOverrun
  else { u with notices := u.notices ++ [n] }

def State.pushNotice (s : State) (p : Port) (n : Notice) : State := s.modPort p (·.pushNotice n)

/-! ### Staging slot, ready queue, window -/

/-- The slot is vacated and the checker cleared (R47, R48). -/
def State.vacateSlot (s : State) (p : Port) : State :=
  s.modPort p fun u => { u with slot := none, checker := Checker.cleared }

/-- A QUEUED job leaves its ready queue at whatever place it stands; the others keep their order (R77). -/
def State.unqueue (s : State) (p : Port) (t : Tag) : State := s.modQueue p (·.filter (· != t))

/-- The result window mapping is removed (R146). -/
def State.unmapWindow (s : State) (p : Port) : State := s.modPort p fun u => { u with window := none }

/-- The record of a STAGING job becomes QUEUED with the clamp count of the checker (R5, R12). -/
def Job.queued (j : Job) (clamp : Nat) : Job :=
  match j.phase with
  | .staging input => { j with phase := .queued clamp input }
  | _ => j

/-- The job is STAGING. -/
def Job.isStaging (j : Job) : Bool :=
  match j.phase with
  | .staging .. => true
  | .queued .. | .decoding .. | .aborting .. | .held .. | .delivering .. => false

/-- The job is QUEUED. -/
def Job.isQueued (j : Job) : Bool :=
  match j.phase with
  | .queued .. => true
  | .staging .. | .decoding .. | .aborting .. | .held .. | .delivering .. => false

/-- STAGING to QUEUED, by TRIGGER answered OK or by the auto-trigger, in one event (R12, R71, R74): the clamp count is
copied, the slot vacated and the checker cleared, the job appended at the tail of its owner's ready queue. The claim finds
its job STAGING (R47); on any other record it is not taken (log 18). -/
def State.triggerJob (s : State) (p : Port) (t : Tag) : State :=
  match s.findJob p t with
  | some j =>
    if j.isStaging then
      ((s.modJob p t (·.queued (s.port p).checker.clamp)).vacateSlot p).modQueue p (· ++ [t])
    else s
  | none => s

/-! ### Freeing a job (R15) -/

/-- Undo the tie that a job's state holds with another block: the staging slot, the ready queue or the window. -/
def State.untie (s : State) (j : Job) : State :=
  match j.phase with
  | .staging _ => s.vacateSlot j.owner
  | .queued .. => s.unqueue j.owner j.tag
  | .delivering _ => s.unmapWindow j.owner
  | .decoding .. | .aborting .. | .held .. => s

/-- The job table frees a job's entry: its input list and then its output list go to the tail of the free list, its ties
are undone and its record is cleared, with its deadline (R15, R38). -/
def State.freeJob (s : State) (j : Job) : State :=
  ((s.returnPages j.pages).untie j).dropJob j.owner j.tag

/-! ### The engine's reports -/

/-- An engine that enters IDLE holds the values R89 gives; its permutation memory and working values stay (R97, R115). -/
def Engine.toIdle (g : Engine) : Engine :=
  { Engine.reset with permMemory := g.permMemory, work := g.work }

/-- The abort report (R14, R93): the job is freed with both lists, the engine is IDLE, an ABORTED notice with the tag is
pushed. -/
def State.abortReport (s : State) (e : EngineId) (j : Job) : State :=
  ((s.freeJob j).modEngine e Engine.toIdle).pushNotice j.owner { kind := .aborted, tag := j.tag, result := none }

/-- The deadline that a job takes on entry to HELD with the tick count at `t` (R138): none for a limit of 0, else
t + m + 1 with the wrap of the tick count. -/
def deadlineFor (t : Tick) (limit : HoldLimit) : Option Tick :=
  if limit = 0#12 then none else some (t + limit.setWidth 32 + 1#32)

/-- The outcome record: the report's fields, the clamp count of the job and the engine that reported (R8). -/
def PendingOutcome.outcome (po : PendingOutcome) (clamp : Nat) (e : EngineId) : Outcome :=
  { stopReason := po.stopReason, iterationsDone := po.iterationsDone, checksumOk := po.checksumOk,
    quality := po.quality, clampCount := clamp, engine := e }

/-- The DONE or FAULT notice formed at entry to HELD (R135, R174). -/
def endNotice (t : Tag) (po : PendingOutcome) : Notice :=
  { kind := if po.stopReason = .permInvalid then .fault else .done
    tag := t
    result := some { stopReason := po.stopReason, iterationsDone := po.iterationsDone, checksumOk := po.checksumOk } }

/-- The completion report (R13, R110): the input pages go to the tail of the free list, the job is HELD with its outcome
and its deadline, the engine is IDLE, and a DONE or FAULT notice is pushed. -/
def State.completionReport (s : State) (e : EngineId) (j : Job) (po : PendingOutcome) : State :=
  let o := po.outcome (j.inputClamp.getD 0) e
  let d := deadlineFor s.tick (s.port j.owner).holdLimit
  (((s.returnPages j.inputPages).modJob j.owner j.tag fun j => { j with phase := .held o d false }).modEngine e
    Engine.toIdle).pushNotice j.owner (endNotice j.tag po)

/-- A boundary (R91): the engine reads abort_requested into its abort-seen flag. Set, it makes the abort report; clear,
it goes on with `proceed`. -/
def State.boundary (s : State) (e : EngineId) (j : Job) (proceed : State → State) : State :=
  let s := s.modEngine e fun g => { g with abortSeen := j.abortRequested }
  if (s.engine e).abortSeen then s.abortReport e j else proceed s

/-! ### Port reset (R22, R127) -/

/-- Whether the job is DECODING or ABORTING, bound to an engine. -/
def Job.onEngine (j : Job) : Bool := j.engine.isSome

/-- A DECODING job becomes ABORTING with abort_requested yes; an ABORTING job is unchanged (R6, R119, R120). -/
def Job.toAborting (j : Job) : Job :=
  match j.phase with
  | .decoding clamp input e => { j with phase := .aborting clamp input e, abortRequested := true }
  | _ => j

/-- Put a job among jobs in ascending order of tag. -/
def insertByTag (j : Job) : List Job → List Job
  | [] => [j]
  | k :: rest => if j.tag.toNat ≤ k.tag.toNat then j :: k :: rest else k :: insertByTag j rest

/-- Jobs in ascending order of tag. -/
def sortByTag (jobs : List Job) : List Job := jobs.foldr insertByTag []

/-- The jobs that a port reset of `p` frees, in ascending order of tag (R22, R39). -/
def State.resetFrees (s : State) (p : Port) : List Job :=
  sortByTag ((s.jobsOf p).filter fun j => !j.onEngine)

/-- The job table's side of a port reset (R22): every job of the port that no engine is working on is freed, in ascending
order of tag, and the DECODING ones become ABORTING. -/
def State.resetJobs (s : State) (p : Port) : State :=
  let s := (s.resetFrees p).foldl State.freeJob s
  { s with jobs := s.jobs.map fun j => if j.owner = p then j.toAborting else j }

/-- The port unit's side of a port reset (R127, Table 6-4); the enables, the hold limit and the line keep their values. -/
def PortUnit.afterPortReset (u : PortUnit) : PortUnit :=
  { u with slot := none, checker := Checker.cleared, window := none, notices := [], raw := 0#5,
           param := Vector.replicate 6 0#32, taint := false, resp := Response.none }

/-- A port reset, from either source, in one event; it leaves RESP at NONE, which the PORT_RESET command then writes. -/
def State.portReset (s : State) (p : Port) : State := (s.resetJobs p).modPort p PortUnit.afterPortReset

/-! ### Device reset (R170) -/

/-- The acknowledgement of a CMD or stream write that a reset replaces is the fault response (R157). -/
def BusAnswer.withdrawn : BusAnswer → BusAnswer
  | .wrote true _ => .wrote true true
  | ans => ans

/-- A port unit after a device reset: its reset line is a pin and stays (R129), and the last acknowledgement stands unless
the reset replaces it (R157, R165). -/
def PortUnit.afterDeviceReset (u : PortUnit) (held : Bool) : PortUnit :=
  { PortUnit.reset with resetHeld := u.resetHeld, bus := if held then u.bus.withdrawn else u.bus }

/-- The state while the device reset is asserted, with the port units given (R170). The sampled profile is read by nothing
until the release samples the straps again (log 13). -/
def State.deviceResetWith (s : State) (units : PerPort PortUnit) : State :=
  { State.reset with deviceReset := true, profile := s.profile, ports := units, pending := s.pending }

end Sys2Proof.Machine
end

