-- ==== Sys2Proof/Machine/Staging.lean ====
section
/-! DEFINITION. The staging checker and the arrival of a stream word (chapter 3). -/

namespace Sys2Proof.Machine

/-! ### Soft values (R56, R57) -/

/-- A soft value outside -31 to +31 is saturated and counted (R56). -/
def softOutOfRange (v : Byte) : Bool := v.toInt < -31 || 31 < v.toInt

/-- The saturated reading of a soft value (R56, R100): 0x20 to 0x7F as +31, 0x80 to 0xE0 as -31, others as they stand. -/
def softValue (v : Byte) : Int := if 31 < v.toInt then 31 else if v.toInt < -31 then -31 else v.toInt

/-- The check of byte b of word j of a soft stream; positions from L = K + 4 up are padding and are not read (R57). -/
def Checker.checkSoftByte (c : Checker) (j : Nat) (w : Word) (b : Nat) : Checker :=
  if 4 * j + b < c.k + 4 ∧ softOutOfRange (byteOf w b) then
    { c with clamp := if c.clamp < 65535 then c.clamp + 1 else c.clamp }
  else c

def Checker.checkSoftWord (c : Checker) (j : Nat) (w : Word) : Checker :=
  [0, 1, 2, 3].foldl (fun c b => c.checkSoftByte j w b) c

/-! ### Permutation indexes (R58 to R60) -/

/-- The mark of one index in the seen-map. -/
def indexMark (x : Nat) : BitVec 8192 := 1#8192 <<< x

/-- A range or duplicate fault sets the flag; the position is recorded when the flag was clear (R58, R59). -/
def Checker.badIndex (c : Checker) (pos : BadPosition) : Checker :=
  { c with permFault := true, firstBad := if c.permFault then c.firstBad else some pos }

/-- The index carried by a half of a PERM word. -/
def halfIndex (w : Word) : Half → Nat
  | .low  => field w 0 16
  | .high => field w 16 16

/-- The position in the stream of a half of word j: 2j, or 2j + 1. -/
def halfPosition (j : Nat) : Half → Nat
  | .low  => 2 * j
  | .high => 2 * j + 1

/-- The test of one half: padding is not tested (R60); an index of K or more, or one already marked, is a fault; any other
is marked (R58). -/
def Checker.checkHalf (c : Checker) (j : Nat) (w : Word) (h : Half) : Checker :=
  let x := halfIndex w h
  if c.k ≤ halfPosition j h then c
  else if c.k ≤ x ∨ c.seen.getLsbD x then c.badIndex ⟨j, h⟩
  else { c with seen := c.seen ||| indexMark x }

/-- The low half first and then the high half. -/
def Checker.checkPermWord (c : Checker) (j : Nat) (w : Word) : Checker :=
  (c.checkHalf j w .low).checkHalf j w .high

/-! ### The checker -/

/-- The checker prepared for a new job (R48). -/
def Checker.prepared (pr : Params) : Checker :=
  let generated := pr.permSource.isGenerated
  let ws := softWords pr.k
  { Checker.cleared with
    k := pr.k, generated := generated, autoTrigger := pr.autoTrigger,
    expected := ⟨ws, ws, ws, permWords pr.k generated⟩ }

/-- Whether a stream has its expected count. -/
def Checker.isFull (c : Checker) (st : Stream) : Bool := c.received.get st == c.expected.get st

/-- An accepted word raises its stream's count and its values are checked (R55). -/
def Checker.accept (c : Checker) (st : Stream) (w : Word) : Checker :=
  let j := c.received.get st
  let counted := { c with received := c.received.set st (j + 1) }
  match st with
  | .perm => counted.checkPermWord j w
  | .sys | .par1 | .par2 => counted.checkSoftWord j w

/-- The input offset of the next word of a stream: 4 × W_s × s + 4 × j (R34). -/
def Checker.nextOffset (c : Checker) (st : Stream) : Nat :=
  4 * c.expected.sys * streamNumber st + 4 * c.received.get st

/-- The condition under which the auto-trigger fires after an accepted word (R62). -/
def Checker.autoFires (c : Checker) : Bool :=
  c.autoTrigger && c.isFull .sys && c.isFull .par1 && c.isFull .par2 && c.isFull .perm &&
  !c.parityFault && !c.overflow && !c.permFault

def State.modChecker (s : State) (p : Port) (f : Checker → Checker) : State :=
  s.modPort p fun u => { u with checker := f u.checker }

/-- The buffer manager stores an accepted word in the staging job's input area, as it arrived (R34, R55). -/
def State.storeStreamWord (s : State) (p : Port) (t : Tag) (o : Nat) (w : Word) : State :=
  match s.findJob p t with
  | some j => s.writeArea j.inputPages o (wordBytes w)
  | none => s

/-- Line 4 of Table 3-6: the word is stored, counted and checked, and the auto-trigger may fire. -/
def State.acceptStreamWord (s : State) (p : Port) (t : Tag) (st : Stream) (w : Word) : State :=
  let c := (s.port p).checker
  let s := (s.storeStreamWord p t (c.nextOffset st) w).modChecker p (·.accept st w)
  if (s.port p).checker.autoFires then s.triggerJob p t else s

/-- The fate of an arriving stream word, in the order of Table 3-6; `good` is its data parity. -/
def State.streamWord (s : State) (p : Port) (st : Stream) (w : Word) (good : Bool) : State :=
  match (s.port p).slot with
  | none =>
    let s := s.setStatus p .strayWrite
    if good then s else s.setStatus p .dataParity
  | some t =>
    if !good then (s.modChecker p fun c => { c with parityFault := true }).setStatus p .dataParity
    else if (s.port p).checker.isFull st then s.modChecker p fun c => { c with overflow := true }
    else s.acceptStreamWord p t st w

end Sys2Proof.Machine
end

