-- ==== Sys2Proof/Machine/Decoding.lean ====
section
/-! DEFINITION. The work of a decode engine (chapter 5): the permutation of PRIME, what the passes read and write, the
checksum, the stop rule, and the bytes that STORE writes. -/

namespace Sys2Proof

/-- The hard decision of value i: 0 when the a posteriori value is zero or positive, 1 when it is negative (R99). -/
def WorkingValues.decision (w : WorkingValues) (i : Nat) : Bool := w.posteriori.getD i 0 < 0

end Sys2Proof

namespace Sys2Proof.Machine

/-! ### PRIME (R94, R95) -/

/-- π(i) = (f1 × i + f2 × i²) mod K, formed exactly before the remainder is taken (R95). -/
def generatedIndex (k f1 f2 i : Nat) : Nat := (f1 * i + f2 * (i * i)) % k

/-- The indexes π(i), π(i + 1), ... of the next n, up to the first that finds its value marked, and whether there was no
repeat (R95). -/
def generateFrom (k f1 f2 : Nat) : Nat → Nat → BitVec 8192 → List Nat × Bool
  | 0, _, _ => ([], true)
  | n + 1, i, marks =>
    let x := generatedIndex k f1 f2 i
    if marks.getLsbD x then ([], false)
    else
      let rest := generateFrom k f1 f2 n (i + 1) (marks ||| indexMark x)
      (x :: rest.1, rest.2)

/-- The generated permutation: the entries computed before a repeat, and whether π is a bijection (R95). -/
def generatePermutation (k f1 f2 : Nat) : List Nat × Bool := generateFrom k f1 f2 k 0 0#8192

/-- The index at position j of the stored PERM region, which begins at input offset 12 × W_s (R94). -/
def State.storedIndex (s : State) (pages : List Page) (k j : Nat) : Nat :=
  halfIndex (s.readAreaWord pages (12 * softWords k + 4 * (j / 2))) (if j % 2 = 0 then .low else .high)

/-- The permutation that PRIME loads and whether it is valid; a CLIENT permutation is copied untested (R94). -/
def State.primePermutation (s : State) (pages : List Page) (pr : Params) : List Nat × Bool :=
  match pr.permSource with
  | .client => ((List.range pr.k).map (s.storedIndex pages pr.k), true)
  | .generated f1 f2 => generatePermutation pr.k f1 f2

/-- A list without the zeros at its end. -/
def trimZeros (l : List Nat) : List Nat := l.foldr (fun x acc => if x = 0 ∧ acc = [] then [] else x :: acc) []

/-- The permutation memory after its first entries are written; the others keep their values (R97). -/
def writePermMemory (old entries : List Nat) : List Nat := trimZeros (entries ++ old.drop entries.length)

/-! ### The passes (R98 to R100) -/

/-- n soft values of the input area from a byte offset, through the saturated reading (R100). -/
def State.softRange (s : State) (pages : List Page) (base n : Nat) : List Int :=
  (List.range n).map fun i => softValue (s.readArea pages (base + i))

/-- What PASS_1 reads (R98). -/
def State.pass1Input (s : State) (pages : List Page) (k : Nat) (w : WorkingValues) : Pass1Input :=
  { k := k
    sys := s.softRange pages 0 (k + 4)
    par1 := s.softRange pages (4 * softWords k) (k + 4)
    extrinsic := (List.range k).map fun i => w.extrinsic.getD i 0 }

/-- PASS_1 writes its refined extrinsic estimates (R98). -/
def pass1Work (k : Nat) (w : WorkingValues) (input : Pass1Input) : WorkingValues :=
  { w with extrinsic := (List.range k).map (Config.pass1Extrinsic input) }

/-- What PASS_2 reads (R99). -/
def State.pass2Input (s : State) (pages : List Page) (k : Nat) (memory : List Nat) (w : WorkingValues) : Pass2Input :=
  let perm := (List.range k).map fun j => memory.getD j 0
  { perm := perm
    sys := perm.map fun i => softValue (s.readArea pages i)
    extrinsic := perm.map fun i => w.extrinsic.getD i 0
    par2 := s.softRange pages (8 * softWords k) (k + 4)
    sysTail := s.softRange pages k 4 }

/-- PASS_2 writes back refined extrinsic estimates and forms the a posteriori values (R99). -/
def pass2Work (k : Nat) (input : Pass2Input) : WorkingValues :=
  { extrinsic := (List.range k).map (Config.pass2Extrinsic input)
    posteriori := (List.range k).map (Config.posteriori input) }

/-! ### EVALUATE (R101 to R105) -/

/-- One bit fed into the checksum register (R105). -/
def checksumFeed {w : Nat} (generator register : BitVec w) (b : Bool) : BitVec w :=
  let shifted := register <<< 1
  if register.msb ^^ b then shifted ^^^ generator else shifted

/-- The register, started at 0, after bits fed in order. -/
def checksumOf {w : Nat} (generator : BitVec w) (bits : List Bool) : BitVec w :=
  bits.foldl (checksumFeed generator) 0

/-- The checksum test of K hard decisions: whether the register ends at 0; absent for NONE (R101, Table 5-6). -/
def checksumResult (kind : ChecksumKind) (bits : List Bool) : Option Bool :=
  match kind with
  | .none => none
  | .c16 => some (checksumOf 0x1021#16 bits == 0)
  | .c24 => some (checksumOf 0x864CFB#24 bits == 0)

/-- Whether the stop rule looks at the checksum streak. -/
def StopRule.usesChecksum : StopRule → Bool
  | .checksum | .either => true
  | .maxOnly | .quality => false

/-- Whether the stop rule looks at the quality. -/
def StopRule.usesQuality : StopRule → Bool
  | .quality | .either => true
  | .maxOnly | .checksum => false

/-- Whether EVALUATE forms a quality value (R102). -/
def Params.formsQuality (pr : Params) : Bool := pr.stopRule.usesQuality || pr.reportQuality

/-- The quality that EVALUATE forms, from 0 to 40; its value is the engine's (R102, log 3). -/
def iterationQuality (pr : Params) (w : WorkingValues) : Option Nat :=
  if pr.formsQuality then some (min 40 (Config.quality w)) else none

/-- The streak after a checksum result: a match raises it, a miss sets it to 0 (R101). -/
def nextStreak (streak : Nat) : Option Bool → Nat
  | some true => streak + 1
  | some false => 0
  | none => streak

/-- Whether a last quality is at least the threshold. -/
def meetsQuality (threshold : Nat) : Option Nat → Bool
  | some q => threshold ≤ q
  | none => false

/-- The stop decision of iteration n (R103): the checksum stop, the quality stop, the limit, in that order. -/
def stopDecision (pr : Params) (n streak : Nat) (quality : Option Nat) : Option StopReason :=
  if max pr.minIter 1 ≤ n ∧ pr.stopRule.usesChecksum ∧ pr.requiredMatches ≤ streak then some .checksum
  else if max pr.minIter 1 ≤ n ∧ pr.stopRule.usesQuality ∧ meetsQuality pr.qualityThreshold quality then some .quality
  else if n = pr.maxIter then some .maxReached
  else none

/-- The engine after EVALUATE with a checksum result and a quality (R101 to R103). -/
def Engine.evaluated (g : Engine) (pr : Params) (checksum : Option Bool) (quality : Option Nat) : Engine :=
  let g := { g with streak := nextStreak g.streak checksum, lastChecksum := checksum, lastQuality := quality }
  match stopDecision pr g.iteration g.streak quality with
  | some reason =>
    { g with stage := .store
             pending := some { stopReason := reason, iterationsDone := g.iteration, checksumOk := checksum,
                               quality := quality } }
  | none => { g with stage := .pass1, iteration := g.iteration + 1 }

/-! ### STORE (R106 to R109) -/

/-- Byte n of the hard-decision region: decision i at bit (i mod 8) of byte ⌊i/8⌋, and 0 from bit K up (R107). -/
def hardByte (k : Nat) (w : WorkingValues) (n : Nat) : Byte :=
  (List.range 8).foldl (fun acc b => if 8 * n + b < k ∧ w.decision (8 * n + b) then acc ||| (1#8 <<< b) else acc) 0#8

/-- The soft value of information value i: scaled by the engine (log 4), saturated to -127 to +127, zero or positive when
the decision is 0 and negative when it is 1 (R108). -/
def softOutputValue (w : WorkingValues) (i : Nat) : Int :=
  if w.decision i then max (-127) (min (-1) (Config.softScale w i)) else max 0 (min 127 (Config.softScale w i))

/-- Byte i of the soft region; 0 from K up (R108). -/
def softByte (k : Nat) (w : WorkingValues) (i : Nat) : Byte :=
  if i < k then BitVec.ofInt 8 (softOutputValue w i) else 0#8

/-- The output of a job: the hard-decision region, then the soft region when soft output is asked for. -/
def outputBytes (pr : Params) (w : WorkingValues) : List Byte :=
  (List.range (hardBytes pr.k)).map (hardByte pr.k w) ++
  (List.range (softBytes pr.k pr.softOutput)).map (softByte pr.k w)

/-- What STORE writes: nothing for PERM_INVALID (R109), else the whole output (R106). -/
def storeBytes (pr : Params) (po : PendingOutcome) (w : WorkingValues) : List Byte :=
  if po.stopReason = .permInvalid then [] else outputBytes pr w

/-- The pending outcome of a permutation that is not a bijection (R96). -/
def permInvalidOutcome : PendingOutcome :=
  { stopReason := .permInvalid, iterationsDone := 0, checksumOk := none, quality := none }

end Sys2Proof.Machine
end

