-- ==== Sys2Proof/Machine/EngineEvents.lean ====
section
/-! DEFINITION. The meanings of the dispatcher's, the engines' and the hold timer's events: GRANT, the five ends of a
stage, TICK and EXPIRY. An event whose condition does not hold in a state is not taken and changes nothing (log 5); none
is taken while the device reset is asserted (R170). -/

namespace Sys2Proof.Machine

/-! ### GRANT (R79, R80) -/

/-- The lowest-numbered IDLE engine. -/
def State.idleEngine (s : State) : Option EngineId :=
  if (s.engine .zero).stage = .idle then some .zero
  else if (s.engine .one).stage = .idle then some .one
  else none

/-- The search order by pointer (Table 4-3): the port the pointer names is considered last. -/
def searchOrder : Port → List Port
  | .a => [.b, .c, .d, .a]
  | .b => [.c, .d, .a, .b]
  | .c => [.d, .a, .b, .c]
  | .d => [.a, .b, .c, .d]

/-- The head of the first non-empty ready queue in an order of ports. -/
def State.firstHead (s : State) : List Port → Option (Port × Tag)
  | [] => none
  | p :: rest =>
    match s.queue p with
    | t :: _ => some (p, t)
    | [] => s.firstHead rest

/-- The choice of a grant: engine, port and job (R79). -/
def State.grantChoice (s : State) : Option (EngineId × Port × Tag) :=
  match s.idleEngine, s.firstHead (searchOrder s.pointer) with
  | some e, some (p, t) => some (e, p, t)
  | _, _ => none

/-- The record of a QUEUED job becomes DECODING with the engine granted (R12). -/
def Job.granted (j : Job) (e : EngineId) : Job :=
  match j.phase with
  | .queued clamp input => { j with phase := .decoding clamp input e }
  | _ => j

/-- The engine begins PRIME for a job (R90). -/
def Engine.startPrime (g : Engine) (id : JobId) (pr : Params) : Engine :=
  { Engine.reset with stage := .prime, bound := some id, params := some pr, permMemory := g.permMemory }

/-- The grant of an engine to the job at the head of a port's queue, in one event (R80). A grant finds its job QUEUED
(R10); on any other record it is not taken (log 18). -/
def State.grantTo (s : State) (e : EngineId) (p : Port) (t : Tag) : State :=
  match s.findJob p t with
  | some j =>
    if j.isQueued then
      let s := (s.modQueue p (·.drop 1)).modJob p t (·.granted e)
      let s := s.modEngine e (·.startPrime ⟨p, t⟩ j.params)
      { s with pointer := p }
    else s
  | none => s

def State.grant (s : State) : State :=
  if s.deviceReset then s
  else
    match s.grantChoice with
    | some (e, p, t) => s.grantTo e p t
    | none => s

/-! ### The ends of the stages -/

/-- The job bound to an engine, DECODING or ABORTING on it (R10, R82). -/
def State.boundJob (s : State) (e : EngineId) : Option Job :=
  match (s.engine e).bound with
  | some id =>
    match s.findJob id.owner id.tag with
    | some j => if j.engine = some e then some j else none
    | none => none
  | none => none

/-- The bound job and the decode parameters of an engine that is in a stage, while no device reset is asserted. -/
def State.inStage (s : State) (e : EngineId) (stage : Stage) : Option (Job × Params) :=
  if s.deviceReset || (s.engine e).stage != stage then none
  else
    match s.boundJob e, (s.engine e).params with
    | some j, some pr => some (j, pr)
    | _, _ => none

/-- After PRIME: PASS_1 of iteration 1 with a valid permutation, else STORE with the PERM_INVALID outcome (R96, R98). -/
def Engine.afterPrime (g : Engine) (valid : Bool) : Engine :=
  if valid then { g with stage := .pass1, iteration := g.iteration + 1 }
  else { g with stage := .store, pending := some permInvalidOutcome }

/-- The end of PRIME (R91, R94 to R96). -/
def State.endOfPrime (s : State) (e : EngineId) : State :=
  match s.inStage e .prime with
  | some (j, pr) =>
    let perm := s.primePermutation j.inputPages pr
    let s := s.modEngine e fun g => { g with permMemory := writePermMemory g.permMemory perm.1 }
    s.boundary e j fun s => s.modEngine e (·.afterPrime perm.2)
  | none => s

/-- The end of PASS_1 (R91, R98). -/
def State.endOfPass1 (s : State) (e : EngineId) : State :=
  match s.inStage e .pass1 with
  | some (j, pr) =>
    let input := s.pass1Input j.inputPages pr.k (s.engine e).work
    let s := s.modEngine e fun g => { g with work := pass1Work pr.k g.work input }
    s.boundary e j fun s => s.modEngine e fun g => { g with stage := .pass2 }
  | none => s

/-- The end of PASS_2 (R91, R99). -/
def State.endOfPass2 (s : State) (e : EngineId) : State :=
  match s.inStage e .pass2 with
  | some (j, pr) =>
    let input := s.pass2Input j.inputPages pr.k (s.engine e).permMemory (s.engine e).work
    let s := s.modEngine e fun g => { g with work := pass2Work pr.k input }
    s.boundary e j fun s => s.modEngine e fun g => { g with stage := .evaluate }
  | none => s

/-- The end of EVALUATE, which is no boundary (R101 to R103). -/
def State.endOfEvaluate (s : State) (e : EngineId) : State :=
  match s.inStage e .evaluate with
  | some (_, pr) =>
    let w := (s.engine e).work
    let checksum := checksumResult pr.checksumKind ((List.range pr.k).map w.decision)
    s.modEngine e (·.evaluated pr checksum (iterationQuality pr w))
  | none => s

/-- The end of STORE (R91, R106 to R110): the writes are made whether or not an abort is then seen (R125). -/
def State.endOfStore (s : State) (e : EngineId) : State :=
  match s.inStage e .store, (s.engine e).pending with
  | some (j, pr), some po =>
    let s := s.writeArea j.output 0 (storeBytes pr po (s.engine e).work)
    s.boundary e j fun s => s.completionReport e j po
  | _, _ => s

/-! ### The hold timer (R136, R139) -/

/-- The expiry of a HELD job is raised at the tick that its deadline names (R139). -/
def Job.raiseExpiry (now : Tick) (j : Job) : Job :=
  match j.phase with
  | .held o (some d) raised => { j with phase := .held o (some d) (raised || d == now) }
  | _ => j

/-- A tick: the count rises by one, wrapping, and expiries are raised for the jobs whose deadline it equals (R136, R139);
the count is held at 0 while the device reset is asserted. -/
def State.tickOnce (s : State) : State :=
  if s.deviceReset then s
  else
    let now := s.tick + 1#32
    { s with tick := now, jobs := s.jobs.map (·.raiseExpiry now) }

/-- Whether an expiry of the job can be taken: its deadline is armed, and equals the tick count or was raised at an
earlier tick and not yet taken (R139; log 12). -/
def Job.expiryDue (j : Job) (now : Tick) : Bool :=
  match j.phase with
  | .held _ (some d) raised => d == now || raised
  | _ => false

/-- The expiry of a job (R139): it is freed and an EXPIRED notice with its tag is pushed. -/
def State.expireJob (s : State) (p : Port) (t : Tag) : State :=
  match s.findJob p t with
  | some j =>
    if !s.deviceReset && j.expiryDue s.tick then
      (s.freeJob j).pushNotice p { kind := .expired, tag := t, result := none }
    else s
  | none => s

/-! ### The rows -/

def execGrant (s : State) : Host.Outcome State Fault Refusal := .next s.grant

def execEndOfPrime (e : EngineId) (s : State) : Host.Outcome State Fault Refusal := .next (s.endOfPrime e)

def execEndOfPass1 (e : EngineId) (s : State) : Host.Outcome State Fault Refusal := .next (s.endOfPass1 e)

def execEndOfPass2 (e : EngineId) (s : State) : Host.Outcome State Fault Refusal := .next (s.endOfPass2 e)

def execEndOfEvaluate (e : EngineId) (s : State) : Host.Outcome State Fault Refusal := .next (s.endOfEvaluate e)

def execEndOfStore (e : EngineId) (s : State) : Host.Outcome State Fault Refusal := .next (s.endOfStore e)

def execTick (s : State) : Host.Outcome State Fault Refusal := .next s.tickOnce

def execExpiry (p : Port) (t : Tag) (s : State) : Host.Outcome State Fault Refusal := .next (s.expireJob p t)

end Sys2Proof.Machine
end

