-- ==== Sys2Proof/Machine/JobCommands.lean ====
section
/-! DEFINITION. The commands as the job table takes them, after the port unit's tests (R165): OPEN, TRIGGER, ABORT,
COLLECT, RELEASE, QUERY and PORT_RESET, each one event with its response. -/

namespace Sys2Proof.Machine

/-- The command codes (Table 8-4). -/
def codeOpen : BitVec 8 := 1
def codeTrigger : BitVec 8 := 2
def codeAbort : BitVec 8 := 3
def codeCollect : BitVec 8 := 4
def codeRelease : BitVec 8 := 5
def codeQuery : BitVec 8 := 6
def codePortReset : BitVec 8 := 7

/-! ### OPEN (R41 to R45) -/

/-- The record that an OPEN reads: PARAM0 to PARAM3 as they stand (R41). -/
def State.openRecord (s : State) (p : Port) : OpenRecord := Machine.openRecord (s.port p).param

/-- The new job's input_pages (R27). -/
def OpenRecord.inPages (r : OpenRecord) : Nat := inputPages r.k r.generated

/-- The new job's output_pages (R27). -/
def OpenRecord.outPages (r : OpenRecord) : Nat := outputPages r.k r.softOutput

/-- T, the pages the new job would take (R30). -/
def OpenRecord.totalPages (r : OpenRecord) : Nat := r.inPages + r.outPages

/-- How an OPEN is answered. -/
inductive OpenAnswer
  | refuse (code : RespCode) (r1 r2 : Word)
  | accept
  deriving DecidableEq, Repr

/-- The checks of Table 3-2, in order, with the words of a refusal (R42, R45). -/
def State.openAnswer (s : State) (p : Port) (r : OpenRecord) : OpenAnswer :=
  if (s.port p).slot.isSome then .refuse .stagingBusy 0 0
  else
    match r.badReason with
    | some reason => .refuse .param (reason.setWidth 32) 0
    | none =>
      if (s.findJob p r.tag).isSome then .refuse .dupTag 0 0
      else if s.liveCount p = s.profile.entryCeiling p then .refuse .quotaEntries 0 0
      else if s.profile.pageCeiling p < s.pagesHeld p + r.totalPages then
        .refuse .quotaPages 0 (openPagesWord r.inPages r.outPages)
      else if s.jobs.length = 32 then .refuse .noEntry 0 0
      else if s.free.length < r.totalPages then .refuse .noSpace 0 (openPagesWord r.inPages r.outPages)
      else .accept

/-- The record of the new job, with its pages from the head of the free list: input first, then output (R11, R31). -/
def State.newJob (s : State) (p : Port) (r : OpenRecord) : Job :=
  { owner := p, tag := r.tag, params := r.params
    output := (s.free.drop r.inPages).take r.outPages
    abortRequested := false
    phase := .staging (s.free.take r.inPages) }

/-- The creation of the job (R11, R44): record, pages, staging slot and prepared checker in one event. -/
def State.createJob (s : State) (p : Port) (r : OpenRecord) : State :=
  let j := s.newJob p r
  let s := s.takePages r.totalPages
  let s := { s with jobs := s.jobs ++ [j] }
  s.modPort p fun u => { u with slot := some r.tag, checker := Checker.prepared r.params }

/-- OPEN taken at the job table (R42, R44, R45). -/
def State.jobOpen (s : State) (p : Port) : State :=
  let r := s.openRecord p
  match s.openAnswer p r with
  | .refuse code r1 r2 => s.respond p code codeOpen r.tag r1 r2 0
  | .accept =>
    (s.createJob p r).respond p .ok codeOpen r.tag (openCountsWord r.k r.generated) (openPagesWord r.inPages r.outPages) 0

/-! ### Commands that name a tag -/

/-- The tag a command names: PARAM0[11:0]. -/
def State.namedTag (s : State) (p : Port) : Tag := tagField (s.port p).param[0]

/-- The first test of Table 4-1 that fails, if any (R70). -/
def Checker.triggerRefusal (c : Checker) : Option RespCode :=
  if c.parityFault then some .parityFault
  else if c.permFault then some .permBad
  else if c.overflow then some .over
  else if c.isShort .sys || c.isShort .par1 || c.isShort .par2 || c.isShort .perm then some .short
  else none

/-- TRIGGER of a STAGING job (R70 to R72). -/
def State.triggerStaging (s : State) (p : Port) (t : Tag) : State :=
  let c := (s.port p).checker
  match c.triggerRefusal with
  | some code => s.respond p code codeTrigger t c.summaryWord (c.firstBadField.setWidth 32) 0
  | none =>
    let s := s.triggerJob p t
    s.respond p .ok codeTrigger t (BitVec.ofNat 32 c.clamp) (BitVec.ofNat 32 (s.queue p).length) 0

/-- TRIGGER taken at the job table (R69). -/
def State.jobTrigger (s : State) (p : Port) : State :=
  let t := s.namedTag p
  match s.findJob p t with
  | none => s.respond p .noJob codeTrigger t 0 0 0
  | some j =>
    match j.phase with
    | .staging _ => s.triggerStaging p t
    | .queued .. | .decoding .. | .aborting .. | .held .. | .delivering .. =>
      s.respond p .wrongState codeTrigger t (stateWord j.phase) 0 0

/-- ABORT taken at the job table (Table 6-1, R116 to R121). -/
def State.jobAbort (s : State) (p : Port) : State :=
  let t := s.namedTag p
  match s.findJob p t with
  | none => s.respond p .noJob codeAbort t 0 0 0
  | some j =>
    match j.phase with
    | .decoding _ _ e =>
      (s.modJob p t (·.toAborting)).respond p .accepted codeAbort t (stateWord j.phase) (e.code.setWidth 32) 0
    | .aborting _ _ e => s.respond p .accepted codeAbort t (stateWord j.phase) (e.code.setWidth 32) 0
    | .staging .. | .queued .. | .held .. | .delivering .. =>
      (s.freeJob j).respond p .ok codeAbort t (stateWord j.phase) 0 0

/-- COLLECT answered OK carries the outcome and the output length (R141). -/
def State.respondCollected (s : State) (p : Port) (t : Tag) (pr : Params) (o : Outcome) : State :=
  let w := collectWords pr o
  s.respond p .ok codeCollect t w.1 w.2.1 w.2.2

/-- HELD to DELIVERING: the deadline is disarmed and the window maps the job (R142). -/
def State.deliver (s : State) (p : Port) (t : Tag) (o : Outcome) : State :=
  (s.modJob p t fun j => { j with phase := .delivering o }).modPort p fun u => { u with window := some t }

/-- COLLECT taken at the job table (Table 7-3, R141 to R145). -/
def State.jobCollect (s : State) (p : Port) : State :=
  let t := s.namedTag p
  match s.findJob p t with
  | none => s.respond p .noJob codeCollect t 0 0 0
  | some j =>
    match j.phase with
    | .staging .. | .aborting .. => s.respond p .wrongState codeCollect t (stateWord j.phase) 0 0
    | .queued .. | .decoding .. => s.respond p .pending codeCollect t (stateWord j.phase) 0 0
    | .held o _ _ =>
      match (s.port p).window with
      | none => (s.deliver p t o).respondCollected p t j.params o
      | some mapped => s.respond p .windowBusy codeCollect t (mapped.setWidth 32) 0 0
    | .delivering o => s.respondCollected p t j.params o

/-- RELEASE taken at the job table (R150). -/
def State.jobRelease (s : State) (p : Port) : State :=
  let t := s.namedTag p
  match s.findJob p t with
  | none => s.respond p .noJob codeRelease t 0 0 0
  | some j =>
    match j.phase with
    | .held .. | .delivering .. => (s.freeJob j).respond p .ok codeRelease t (stateWord j.phase) 0 0
    | .staging .. | .queued .. | .decoding .. | .aborting .. =>
      s.respond p .wrongState codeRelease t (stateWord j.phase) 0 0

/-- QUERY taken at the job table: it changes nothing but the response words (R19, R20). -/
def State.jobQuery (s : State) (p : Port) : State :=
  let t := s.namedTag p
  match s.findJob p t with
  | none => s.respond p .noJob codeQuery t 0 0 0
  | some j =>
    let w := queryWords j (s.port p).checker
    s.respond p .ok codeQuery t w.1 w.2.1 w.2.2

/-! ### PORT_RESET (R126) -/

/-- Whether a job is ABORTING. -/
def Job.isAborting (j : Job) : Bool :=
  match j.phase with
  | .aborting .. => true
  | .staging .. | .queued .. | .decoding .. | .held .. | .delivering .. => false

/-- The number of the port's jobs that are ABORTING. -/
def State.abortingCount (s : State) (p : Port) : Nat := ((s.jobsOf p).filter (·.isAborting)).length

/-- PORT_RESET taken at the job table: the reset, then the response with the jobs freed and the jobs ABORTING. -/
def State.jobPortReset (s : State) (p : Port) : State :=
  let freed := (s.resetFrees p).length
  let s := s.portReset p
  s.respond p .ok codePortReset 0#12 (BitVec.ofNat 32 freed) (BitVec.ofNat 32 (s.abortingCount p)) 0

end Sys2Proof.Machine
end

