-- ==== Sys2Proof/Machine/PortBus.lean ====
section
/-! DEFINITION. The port bus and the port unit's own words (chapters 8 and 9): Tables 8-1 to 8-3, the CMD write, and what
a read returns. -/

namespace Sys2Proof.Machine

/-! ### Answers -/

def State.answer (s : State) (p : Port) (ans : BusAnswer) : State := s.modPort p fun u => { u with bus := ans }

/-- Lines 1 to 3 of Table 8-1: the device reset is asserted, the profile disables the port, or its reset line is held. -/
def State.portClosed (s : State) (p : Port) : Bool :=
  s.deviceReset || !(s.profile.enables p) || (s.port p).resetHeld

/-- The fault response to a read: data 0 with each parity bit at 1 (R157). -/
def faultRead : BusAnswer := .read true 0#32 0xF#4

/-- A normal answer to a read, with generated parity (R159). -/
def goodRead (data : Word) : BusAnswer := .read false data (generatedParity data)

/-! ### CMD (R164) -/

/-- RESP1 of CMD_PARITY: [0] the word's parity was bad, [1] the taint was set (Table 10-6). -/
def cmdParityWord (good taint : Bool) : Word := 0#30 ++ bit taint ++ bit (!good)

/-- A CMD_PARITY refusal clears the taint and answers at the port unit (R164). -/
def State.refuseParity (s : State) (p : Port) (code : BitVec 8) (good : Bool) : State :=
  let u := s.port p
  let s := if good then s else s.setStatus p .dataParity
  (s.modPort p fun u => { u with taint := false }).respond p .cmdParity code (tagField u.param[0])
    (cmdParityWord good u.taint) 0 0

/-- A code that names no command is answered at the port unit (R164). -/
def State.refuseCode (s : State) (p : Port) (code : BitVec 8) : State :=
  s.respond p .badCommand code (s.namedTag p) 0 0 0

/-- The command of a code, taken at the job table; a code outside Table 8-4 is answered BAD_COMMAND. -/
def State.takeCommand (s : State) (p : Port) (code : BitVec 8) : State :=
  if code = codeOpen then s.jobOpen p
  else if code = codeTrigger then s.jobTrigger p
  else if code = codeAbort then s.jobAbort p
  else if code = codeCollect then s.jobCollect p
  else if code = codeRelease then s.jobRelease p
  else if code = codeQuery then s.jobQuery p
  else if code = codePortReset then s.jobPortReset p
  else s.refuseCode p code

/-- A CMD write that the port performs, tested in the order of R164: data parity, taint, code. -/
def State.commandWrite (s : State) (p : Port) (w : Word) (good : Bool) : State :=
  let code : BitVec 8 := w.extractLsb' 0 8
  if !good || (s.port p).taint then s.refuseParity p code good else s.takeCommand p code

/-! ### Performed writes (Tables 8-2 and 8-3) -/

/-- What a write with good data parity does to a word of the port unit itself. -/
def PortUnit.writeWord (u : PortUnit) (target : WriteTarget) (w : Word) : PortUnit :=
  match target with
  | .settings => { u with holdLimit := w.extractLsb' 0 12 }
  | .statusSet => u.statusSet w
  | .statusClear => u.statusClear w
  | .enableSet => u.enableSet w
  | .enableClear => u.enableClear w
  | .param i => { u with param := u.param.set i w }
  | .cmd | .stream _ | .stray => u

/-- What a write with bad data parity does to a word of the port unit, besides DATA_PARITY (Table 8-3). -/
def PortUnit.badWrite (u : PortUnit) (target : WriteTarget) : PortUnit :=
  match target with
  | .param _ => { u with taint := true }
  | .settings | .statusSet | .statusClear | .enableSet | .enableClear | .cmd | .stream _ | .stray => u

/-- A write that the port performs; `good` is its data parity. -/
def State.performWrite (s : State) (p : Port) (target : WriteTarget) (w : Word) (good : Bool) : State :=
  match target with
  | .cmd => s.commandWrite p w good
  | .stream st => s.streamWord p st w good
  | .stray =>
    let s := s.setStatus p .strayWrite
    if good then s else s.setStatus p .dataParity
  | .settings | .statusSet | .statusClear | .enableSet | .enableClear | .param _ =>
    if good then s.modPort p (·.writeWord target w) else s.modPort p fun u => (u.badWrite target).setBit .dataParity

/-- Whether a write's acknowledgement waits for the reference-clock side: CMD and the stream apertures (R155). -/
def WriteTarget.crosses : WriteTarget → Bool
  | .cmd | .stream _ => true
  | .settings | .statusSet | .statusClear | .enableSet | .enableClear | .param _ | .stray => false

/-- A write access, answered by the first line of Table 8-1 that applies (R156). -/
def State.writeAccess (s : State) (p : Port) (a : WordAddr) (w : Word) (bus : WriteParity) : State :=
  let target := writeTarget a
  if s.portClosed p then s.answer p (.wrote target.crosses true)
  else if !addrParityGood a true bus.addr then (s.setStatus p .addrParity).answer p (.wrote target.crosses true)
  else (s.performWrite p target w (dataParityGood w bus.data)).answer p (.wrote target.crosses false)

/-! ### Performed reads (Table 8-2) -/

/-- The data that a read of a word of the port unit returns, for the words whose read changes nothing. -/
def State.readWord (s : State) (p : Port) (target : ReadTarget) : Word :=
  let u := s.port p
  match target with
  | .ident => identWord s.profile p
  | .settings => u.holdLimit.setWidth 32
  | .status => statusWord u.statusBits
  | .enable => statusWord u.enables
  | .enabledStatus => statusWord u.enabledStatus
  | .param i => u.param.get i
  | .resp 0 => u.resp.r0
  | .resp 1 => u.resp.r1
  | .resp 2 => u.resp.r2
  | .resp 3 => u.resp.r3
  | .notice | .window _ | .stray => 0#32

/-- The word at an offset of the result window, when the window maps a job and the offset lies below its output length
(R147). -/
def State.windowWord (s : State) (p : Port) (o : Nat) : Option Word :=
  match (s.port p).window with
  | none => none
  | some t =>
    match s.findJob p t with
    | none => none
    | some j => if o < j.params.outputLength then some (s.readAreaWord j.output o) else none

/-- A read that the port performs. -/
def State.performRead (s : State) (p : Port) (target : ReadTarget) : State :=
  match target with
  | .notice =>
    match (s.port p).notices with
    | n :: rest => (s.modPort p fun u => { u with notices := rest }).answer p (goodRead n.word)
    | [] => s.answer p (goodRead 0#32)
  | .window o =>
    match s.windowWord p o with
    | some w => s.answer p (goodRead w)
    | none => (s.setStatus p .strayRead).answer p (goodRead 0#32)
  | .stray => (s.setStatus p .strayRead).answer p (goodRead 0#32)
  | .ident | .settings | .status | .enable | .enabledStatus | .param _ | .resp _ =>
    s.answer p (goodRead (s.readWord p target))

/-- A read access, answered by the first line of Table 8-1 that applies (R156). -/
def State.readAccess (s : State) (p : Port) (a : WordAddr) (addrParity : Bool) : State :=
  if s.portClosed p then s.answer p faultRead
  else if !addrParityGood a false addrParity then (s.setStatus p .addrParity).answer p faultRead
  else s.performRead p (readTarget a)

end Sys2Proof.Machine
end

