-- ==== Sys2Proof/Machine/PortCommands.lean ====
section
/-! DEFINITION. The meanings of the rows that are accesses of a client, and of the rows that are events of the part's reset
inputs. An access is what the port bus presents: a word at an address with its parity (log 9). -/

namespace Sys2Proof.Machine

/-! ### Writes of CMD -/

/-- Command code 1 (R42). -/
def execOpenJob (p : Port) (reserved : BitVec 24) (bus : WriteParity) (s : State) : Host.Outcome State Fault Refusal :=
  .next (s.writeAccess p cmdAddr (cmdWord reserved codeOpen) bus)

/-- Command code 2 (R70). -/
def execTrigger (p : Port) (reserved : BitVec 24) (bus : WriteParity) (s : State) : Host.Outcome State Fault Refusal :=
  .next (s.writeAccess p cmdAddr (cmdWord reserved codeTrigger) bus)

/-- Command code 3 (R116). -/
def execAbort (p : Port) (reserved : BitVec 24) (bus : WriteParity) (s : State) : Host.Outcome State Fault Refusal :=
  .next (s.writeAccess p cmdAddr (cmdWord reserved codeAbort) bus)

/-- Command code 4 (R141). -/
def execCollect (p : Port) (reserved : BitVec 24) (bus : WriteParity) (s : State) : Host.Outcome State Fault Refusal :=
  .next (s.writeAccess p cmdAddr (cmdWord reserved codeCollect) bus)

/-- Command code 5 (R150). -/
def execRelease (p : Port) (reserved : BitVec 24) (bus : WriteParity) (s : State) : Host.Outcome State Fault Refusal :=
  .next (s.writeAccess p cmdAddr (cmdWord reserved codeRelease) bus)

/-- Command code 6 (R19). -/
def execQuery (p : Port) (reserved : BitVec 24) (bus : WriteParity) (s : State) : Host.Outcome State Fault Refusal :=
  .next (s.writeAccess p cmdAddr (cmdWord reserved codeQuery) bus)

/-- Command code 7 (R126). -/
def execPortReset (p : Port) (reserved : BitVec 24) (bus : WriteParity) (s : State) : Host.Outcome State Fault Refusal :=
  .next (s.writeAccess p cmdAddr (cmdWord reserved codePortReset) bus)

/-- A code that names no command (R164). -/
def execBadCommand (p : Port) (code : BitVec 8) (reserved : BitVec 24) (bus : WriteParity) (s : State) :
    Host.Outcome State Fault Refusal :=
  .next (s.writeAccess p cmdAddr (cmdWord reserved code) bus)

/-! ### Other writes -/

/-- A stream word (R50, R51). -/
def execStreamWord (p : Port) (st : Stream) (offset : BitVec 10) (data : Word) (bus : WriteParity) (s : State) :
    Host.Outcome State Fault Refusal :=
  .next (s.writeAccess p (apertureAddr st offset) data bus)

/-- PARAM0 to PARAM5 (R162). -/
def execParamWrite (p : Port) (index : Fin 6) (data : Word) (bus : WriteParity) (s : State) :
    Host.Outcome State Fault Refusal :=
  .next (s.writeAccess p (paramAddr index) data bus)

/-- SETTINGS (R168). -/
def execSettingsWrite (p : Port) (data : Word) (bus : WriteParity) (s : State) : Host.Outcome State Fault Refusal :=
  .next (s.writeAccess p settingsAddr data bus)

/-- STATUS_SET (R180). -/
def execStatusSet (p : Port) (data : Word) (bus : WriteParity) (s : State) : Host.Outcome State Fault Refusal :=
  .next (s.writeAccess p statusSetAddr data bus)

/-- STATUS_CLEAR (R180). -/
def execStatusClear (p : Port) (data : Word) (bus : WriteParity) (s : State) : Host.Outcome State Fault Refusal :=
  .next (s.writeAccess p statusClearAddr data bus)

/-- ENABLE_SET (R182). -/
def execEnableSet (p : Port) (data : Word) (bus : WriteParity) (s : State) : Host.Outcome State Fault Refusal :=
  .next (s.writeAccess p enableSetAddr data bus)

/-- ENABLE_CLEAR (R182). -/
def execEnableClear (p : Port) (data : Word) (bus : WriteParity) (s : State) : Host.Outcome State Fault Refusal :=
  .next (s.writeAccess p enableClearAddr data bus)

/-- A write at an address; stray where the row's name applies (R160). -/
def execStrayWrite (p : Port) (addr : WordAddr) (data : Word) (bus : WriteParity) (s : State) :
    Host.Outcome State Fault Refusal :=
  .next (s.writeAccess p addr data bus)

/-! ### Reads -/

/-- NOTICE (R176). -/
def execNoticeRead (p : Port) (addrParity : Bool) (s : State) : Host.Outcome State Fault Refusal :=
  .next (s.readAccess p noticeAddr addrParity)

/-- The result window (R147). -/
def execResultWindowRead (p : Port) (offset : BitVec 12) (addrParity : Bool) (s : State) :
    Host.Outcome State Fault Refusal :=
  .next (s.readAccess p (windowAddr offset) addrParity)

/-- A read at an address; stray where the row's name applies (R160), the plain read of a readable word otherwise (log 9). -/
def execStrayRead (p : Port) (addr : WordAddr) (addrParity : Bool) (s : State) : Host.Outcome State Fault Refusal :=
  .next (s.readAccess p addr addrParity)

/-! ### Reset inputs -/

/-- Assertion of the device reset input (R170). The reset lines are pins and stay as they are (R129). -/
def State.assertDeviceReset (s : State) (held : PerPort Bool) : State :=
  s.deviceResetWith
    ⟨s.ports.a.afterDeviceReset held.a, s.ports.b.afterDeviceReset held.b,
     s.ports.c.afterDeviceReset held.c, s.ports.d.afterDeviceReset held.d⟩

/-- A port unit at power-on: no memory of the state before, but for the level of its reset line, a pin (R171). -/
def PortUnit.afterPowerOn (u : PortUnit) : PortUnit := { PortUnit.reset with resetHeld := u.resetHeld }

/-- Power-on: in every respect a device reset (R171). -/
def State.powerOn (s : State) : State :=
  s.deviceResetWith
    ⟨s.ports.a.afterPowerOn, s.ports.b.afterPowerOn, s.ports.c.afterPowerOn, s.ports.d.afterPowerOn⟩

/-- The release of the device reset: the straps are sampled (R170, R172). It is an event only while the reset is asserted
(log 5). -/
def State.releaseDeviceReset (s : State) (prof1 prof0 : Bool) : State :=
  if s.deviceReset then { s with deviceReset := false, profile := profileOf prof1 prof0 } else s

/-- Assertion of a port's reset line: a port reset with RESP at NONE, and the port is held (R129). -/
def State.assertResetLine (s : State) (p : Port) (held : Bool) : State :=
  (s.portReset p).modPort p fun u => { u with resetHeld := true, bus := if held then u.bus.withdrawn else u.bus }

/-- Release of a port's reset line: it ends the hold and frees no job (R131). -/
def State.releaseResetLine (s : State) (p : Port) : State := s.modPort p fun u => { u with resetHeld := false }

def execDeviceReset (held : PerPort Bool) (s : State) : Host.Outcome State Fault Refusal := .next (s.assertDeviceReset held)

def execPowerOn (s : State) : Host.Outcome State Fault Refusal := .next s.powerOn

def execDeviceResetRelease (prof1 prof0 : Bool) (s : State) : Host.Outcome State Fault Refusal :=
  .next (s.releaseDeviceReset prof1 prof0)

def execPortResetLineAssertion (p : Port) (held : Bool) (s : State) : Host.Outcome State Fault Refusal :=
  .next (s.assertResetLine p held)

def execPortResetLineRelease (p : Port) (s : State) : Host.Outcome State Fault Refusal := .next (s.releaseResetLine p)

end Sys2Proof.Machine
end

