-- ==== Sys2Proof/Machine/Dispatch.lean ====
section
/-! DEFINITION. One arm for each row of spec/opcode_table.json. -/

namespace Sys2Proof.Machine

def exec (i : Instr) (s : State) : Host.Outcome State Fault Refusal :=
  match i with
  | .openJob p reserved bus => Sys2Proof.Machine.execOpenJob p reserved bus s
  | .trigger p reserved bus => Sys2Proof.Machine.execTrigger p reserved bus s
  | .abort p reserved bus => Sys2Proof.Machine.execAbort p reserved bus s
  | .collect p reserved bus => Sys2Proof.Machine.execCollect p reserved bus s
  | .release p reserved bus => Sys2Proof.Machine.execRelease p reserved bus s
  | .query p reserved bus => Sys2Proof.Machine.execQuery p reserved bus s
  | .portReset p reserved bus => Sys2Proof.Machine.execPortReset p reserved bus s
  | .badCommand p code reserved bus => Sys2Proof.Machine.execBadCommand p code reserved bus s
  | .streamWord p st offset data bus => Sys2Proof.Machine.execStreamWord p st offset data bus s
  | .paramWrite p index data bus => Sys2Proof.Machine.execParamWrite p index data bus s
  | .settingsWrite p data bus => Sys2Proof.Machine.execSettingsWrite p data bus s
  | .statusSet p data bus => Sys2Proof.Machine.execStatusSet p data bus s
  | .statusClear p data bus => Sys2Proof.Machine.execStatusClear p data bus s
  | .enableSet p data bus => Sys2Proof.Machine.execEnableSet p data bus s
  | .enableClear p data bus => Sys2Proof.Machine.execEnableClear p data bus s
  | .noticeRead p par => Sys2Proof.Machine.execNoticeRead p par s
  | .resultWindowRead p offset par => Sys2Proof.Machine.execResultWindowRead p offset par s
  | .strayWrite p addr data bus => Sys2Proof.Machine.execStrayWrite p addr data bus s
  | .strayRead p addr par => Sys2Proof.Machine.execStrayRead p addr par s
  | .grant => Sys2Proof.Machine.execGrant s
  | .endOfPrime e => Sys2Proof.Machine.execEndOfPrime e s
  | .endOfPass1 e => Sys2Proof.Machine.execEndOfPass1 e s
  | .endOfPass2 e => Sys2Proof.Machine.execEndOfPass2 e s
  | .endOfEvaluate e => Sys2Proof.Machine.execEndOfEvaluate e s
  | .endOfStore e => Sys2Proof.Machine.execEndOfStore e s
  | .tick => Sys2Proof.Machine.execTick s
  | .expiry p tag => Sys2Proof.Machine.execExpiry p tag s
  | .deviceReset held => Sys2Proof.Machine.execDeviceReset held s
  | .powerOn => Sys2Proof.Machine.execPowerOn s
  | .deviceResetRelease prof1 prof0 => Sys2Proof.Machine.execDeviceResetRelease prof1 prof0 s
  | .portResetLineAssertion p held => Sys2Proof.Machine.execPortResetLineAssertion p held s
  | .portResetLineRelease p => Sys2Proof.Machine.execPortResetLineRelease p s

end Sys2Proof.Machine
end

