-- ==== Sys2Proof/Safety.lean ====
section
/-! DEFINITION. What counts as a sound state of the D440: the laws that chapters 1 to 9 say the blocks keep. Each is a
predicate on plain states; the obligations state that every step keeps it. Then the words that the obligations speak with:
which row is which access, when an access is performed, the checks of OPEN and TRIGGER as ordered lists, the event that frees
a job, and a working engine. -/

namespace Sys2Proof.Machine

/-! ### Kinds of live job -/

/-- The job is DELIVERING. -/
def Job.isDelivering (j : Job) : Bool :=
  match j.phase with
  | .delivering .. => true
  | .staging .. | .queued .. | .decoding .. | .aborting .. | .held .. => false

/-- The identity of a job (R1). -/
def Job.id (j : Job) : JobId := ⟨j.owner, j.tag⟩

/-! ### Laws of the job table and the buffer store -/

/-- "No two live jobs have the same owner port and the same tag" (R1). -/
def State.IdsDistinct (s : State) : Prop := (s.jobs.map Job.id).Nodup

/-- "The number of pages in the free list plus the pages in all live jobs' input and output lists is always 256, and no
page appears twice among them" (R24), with distinct identities. -/
structure State.PagesConserved (s : State) : Prop where
  ids   : s.IdsDistinct
  pages : (s.free ++ s.jobs.flatMap Job.pages).Perm (List.finRange 256)

/-- "A port's live jobs number no more than its entry ceiling and hold no more pages than its page ceiling, and all live
jobs together number no more than 32" (R17); no job is live while the device reset is asserted (R21). -/
structure State.WithinCeilings (s : State) : Prop where
  none_in_reset : s.deviceReset = true → s.jobs = []
  device        : s.jobs.length ≤ 32
  entries       : ∀ p, s.liveCount p ≤ s.profile.entryCeiling p
  pages         : ∀ p, s.pagesHeld p ≤ s.profile.pageCeiling p

/-- "A live job's params are therefore always within the ranges of Table 1-2, with min_iter ≤ max_iter, and with
checksum_kind other than NONE whenever stop_rule is CHECKSUM or EITHER" (R4). -/
structure Params.Legal (pr : Params) : Prop where
  k         : 40 ≤ pr.k ∧ pr.k ≤ 8192
  iters     : pr.minIter ≤ pr.maxIter ∧ 1 ≤ pr.maxIter ∧ pr.maxIter ≤ 15
  matches_  : 1 ≤ pr.requiredMatches ∧ pr.requiredMatches ≤ 4
  threshold : pr.qualityThreshold ≤ 40
  checksum  : pr.stopRule.usesChecksum = true → pr.checksumKind ≠ .none
  perm      : ∀ f1 f2, pr.permSource = .generated f1 f2 → 1 ≤ f1 ∧ f1 < pr.k ∧ f2 < pr.k ∧ pr.k % 8 = 0

/-- Every live job's params are legal (R4). -/
def State.ParamsLegal (s : State) : Prop := ∀ j ∈ s.jobs, j.params.Legal

/-- The page lists of a live job have the lengths that its params give (R27, R31): the output list in every state, the input
list in the states that hold one, which are those without an outcome (Table 1-1a). -/
def State.ListsSized (s : State) : Prop :=
  ∀ j ∈ s.jobs, j.output.length = outputPages j.params.k j.params.softOutput ∧
    (j.outcome = none → j.inputPages.length = inputPages j.params.k j.params.permSource.isGenerated)

/-- abort_requested is yes exactly while a job is ABORTING (R6, R91), with distinct identities. -/
structure State.AbortFlags (s : State) : Prop where
  ids   : s.IdsDistinct
  flags : ∀ j ∈ s.jobs, j.abortRequested = j.isAborting

/-! ### Ties between the blocks -/

/-- "Each port has at most one STAGING job, and it is the job its staging slot names" (R47). -/
structure State.SlotsTied (s : State) : Prop where
  ids   : s.IdsDistinct
  slots : ∀ p t, (s.port p).slot = some t ↔ ∃ j ∈ s.jobs, j.isFor p t = true ∧ j.isStaging = true

/-- "A job is in a ready queue exactly when it is QUEUED. It is in its owner's queue only, and it appears there once"
(R75). -/
structure State.QueuesTied (s : State) : Prop where
  ids    : s.IdsDistinct
  once   : ∀ p, (s.queue p).Nodup
  queues : ∀ p t, t ∈ s.queue p ↔ ∃ j ∈ s.jobs, j.isFor p t = true ∧ j.isQueued = true

/-- "Each port's result window maps at most one job, and a job is DELIVERING exactly when its owner's window maps it"
(R146). -/
structure State.WindowsTied (s : State) : Prop where
  ids     : s.IdsDistinct
  windows : ∀ p t, (s.port p).window = some t ↔ ∃ j ∈ s.jobs, j.isFor p t = true ∧ j.isDelivering = true

/-- "An engine is not IDLE exactly when it is bound to one job in DECODING or ABORTING, and each such job is bound to
exactly one engine" (R82). -/
structure State.BindingsTied (s : State) : Prop where
  ids      : s.IdsDistinct
  idle     : ∀ e, (s.engine e).stage = .idle ↔ (s.engine e).bound = none
  bindings : ∀ e p t, (s.engine e).bound = some ⟨p, t⟩ ↔ ∃ j ∈ s.jobs, j.isFor p t = true ∧ j.engine = some e

/-! ### Laws of an engine -/

/-- What an engine holds in each stage (R89, R90, R98, R101, R103, and R8: iterations_done never exceeds max_iter). -/
def Engine.Sound (g : Engine) : Prop :=
  match g.stage, g.params with
  | .idle, none => g.bound = none ∧ g.iteration = 0 ∧ g.streak = 0 ∧ g.lastChecksum = none ∧ g.lastQuality = none ∧
      g.pending = none ∧ g.abortSeen = false
  | .prime, some pr => g.iteration = 0 ∧ g.streak = 0 ∧ g.pending = none ∧ 1 ≤ pr.maxIter
  | .pass1, some pr | .pass2, some pr | .evaluate, some pr =>
      1 ≤ g.iteration ∧ g.iteration ≤ pr.maxIter ∧ g.streak < g.iteration ∧ g.pending = none
  | .store, some pr =>
      g.iteration ≤ pr.maxIter ∧ g.streak ≤ g.iteration ∧
      ∃ po, g.pending = some po ∧ po.iterationsDone = g.iteration ∧ (po.stopReason = .permInvalid ↔ g.iteration = 0)
  | _, _ => False

/-- Both engines are sound and every live job's params are legal. -/
structure State.EnginesSound (s : State) : Prop where
  params  : s.ParamsLegal
  engines : ∀ e, (s.engine e).Sound

/-- "The params of a live job do not change (R4), so the copy and the record agree for the whole decode" (R90). -/
structure State.ParamsCopied (s : State) : Prop where
  ids    : s.IdsDistinct
  copied : ∀ e, ∀ j ∈ s.jobs, (s.engine e).bound = some j.id → j.engine = some e → (s.engine e).params = some j.params

/-! ### Laws of a port unit -/

/-- "A port's notice queue holds no more than 16 notices" (R175). -/
def State.NoticesBounded (s : State) : Prop := ∀ p, (s.port p).notices.length ≤ 16

/-- While a port's reset line is held its raw status is clear, its queue empty, its slot and window empty, and its live jobs
are ABORTING (R130); with the abort flags of its jobs. -/
structure State.HeldPortsQuiet (s : State) : Prop where
  aborts : s.AbortFlags
  quiet  : ∀ p, (s.port p).resetHeld = true →
    (s.port p).notices = [] ∧ (s.port p).raw = 0#5 ∧ (s.port p).slot = none ∧ (s.port p).window = none ∧
    ∀ j ∈ s.jobs, j.owner = p → j.isAborting = true

/-- "A stream's received word count never exceeds its expected word count" (R55). -/
def State.CountsBounded (s : State) : Prop :=
  ∀ p st, (s.port p).checker.received.get st ≤ (s.port p).checker.expected.get st

/-- "Each saturated value raises the running clamp count by one, until the count reaches 65535. There it stays" (R56). -/
def State.ClampBounded (s : State) : Prop := ∀ p, (s.port p).checker.clamp ≤ 65535

/-! ### Accesses -/

/-- The write access that a row presents to its port: address, data, parity. -/
def asWrite : Instr → Option (Port × WordAddr × Word × WriteParity)
  | .openJob p r bus => some (p, cmdAddr, cmdWord r 1, bus)
  | .trigger p r bus => some (p, cmdAddr, cmdWord r 2, bus)
  | .abort p r bus => some (p, cmdAddr, cmdWord r 3, bus)
  | .collect p r bus => some (p, cmdAddr, cmdWord r 4, bus)
  | .release p r bus => some (p, cmdAddr, cmdWord r 5, bus)
  | .query p r bus => some (p, cmdAddr, cmdWord r 6, bus)
  | .portReset p r bus => some (p, cmdAddr, cmdWord r 7, bus)
  | .badCommand p code r bus => some (p, cmdAddr, cmdWord r code, bus)
  | .streamWord p st offset data bus => some (p, apertureAddr st offset, data, bus)
  | .paramWrite p i data bus => some (p, paramAddr i, data, bus)
  | .settingsWrite p data bus => some (p, settingsAddr, data, bus)
  | .statusSet p data bus => some (p, statusSetAddr, data, bus)
  | .statusClear p data bus => some (p, statusClearAddr, data, bus)
  | .enableSet p data bus => some (p, enableSetAddr, data, bus)
  | .enableClear p data bus => some (p, enableClearAddr, data, bus)
  | .strayWrite p a data bus => some (p, a, data, bus)
  | _ => none

/-- The read access that a row presents to its port: address, address parity bit. -/
def asRead : Instr → Option (Port × WordAddr × Bool)
  | .noticeRead p par => some (p, noticeAddr, par)
  | .resultWindowRead p offset par => some (p, windowAddr offset, par)
  | .strayRead p a par => some (p, a, par)
  | _ => none

/-- The ones of byte b of a word, with its parity bit, bit b of the four (log 22, the model's choice). -/
def byteOnes (w : Word) (par : BitVec 4) (b : Nat) : Nat :=
  (List.range 8).countP (fun i => w.getLsbD (8 * b + i)) + (par.getLsbD b).toNat

/-- Lines 1 to 3 of Table 8-1 do not apply. -/
structure State.Performs (s : State) (p : Port) : Prop where
  released : s.deviceReset = false
  enabled  : s.profile.enables p = true
  line     : (s.port p).resetHeld = false

/-- A write that the port performs, with good data parity. -/
structure State.GoodWrite (s : State) (p : Port) (a : WordAddr) (w : Word) (bus : WriteParity) : Prop where
  performs : s.Performs p
  addr     : addrParityGood a true bus.addr = true
  data     : dataParityGood w bus.data = true

/-- A read that the port performs. -/
structure State.PerformedRead (s : State) (p : Port) (a : WordAddr) (par : Bool) : Prop where
  performs : s.Performs p
  addr     : addrParityGood a false par = true

/-- A CMD write that passes the port unit's parity and taint tests (R164). -/
structure State.PassesPort (s : State) (p : Port) (reserved : BitVec 24) (code : BitVec 8) (bus : WriteParity) : Prop where
  write : s.GoodWrite p cmdAddr (cmdWord reserved code) bus
  taint : (s.port p).taint = false

/-- The state with one port unit put in place. -/
def State.withPort (s : State) (p : Port) (u : PortUnit) : State := { s with ports := s.ports.set p u }

/-- The port unit after an answered command: the four response words, and the normal acknowledgement. -/
def PortUnit.told (u : PortUnit) (code : RespCode) (cmd : BitVec 8) (tag : Tag) (r1 r2 r3 : Word) : PortUnit :=
  { u with resp := { r0 := resp0 code cmd tag, r1 := r1, r2 := r2, r3 := r3 }, bus := .wrote true false }

/-- The state after a command that changes nothing but its response. -/
def State.told (s : State) (p : Port) (code : RespCode) (cmd : BitVec 8) (tag : Tag) (r1 r2 r3 : Word) : State :=
  s.withPort p ((s.port p).told code cmd tag r1 r2 r3)

/-! ### Checks, as ordered lists -/

/-- The reasons of Table 3-3, in order. -/
def paramOrder : List Nat := [1, 2, 3, 4, 5, 6, 7, 8]

/-- When a condition of Table 3-3 fails, by its reason. -/
def OpenRecord.fails (r : OpenRecord) : Nat → Bool
  | 1 => r.k < 40 || 8192 < r.k
  | 2 => r.generated && r.k % 8 != 0
  | 3 => r.maxIter == 0
  | 4 => r.maxIter < r.minIter
  | 5 => r.checksumKind == 3 || r.requiredMatches == 0 || 4 < r.requiredMatches
  | 6 => (r.stopRule == 1 || r.stopRule == 3) && r.checksumKind == 0
  | 7 => 40 < r.qualityThreshold
  | 8 => r.generated && (r.f1 == 0 || r.k ≤ r.f1 || r.k ≤ r.f2)
  | _ => false

/-- The checks of Table 3-2, in order. -/
def openOrder : List RespCode :=
  [.stagingBusy, .param, .dupTag, .quotaEntries, .quotaPages, .noEntry, .noSpace]

/-- When a check of Table 3-2 fails, by its response. -/
def State.openFails (s : State) (p : Port) (r : OpenRecord) : RespCode → Bool
  | .stagingBusy  => (s.port p).slot.isSome
  | .param        => paramOrder.any r.fails
  | .dupTag       => s.jobs.any fun j => j.owner == p && j.tag == r.tag
  | .quotaEntries => s.liveCount p == s.profile.entryCeiling p
  | .quotaPages   => s.profile.pageCeiling p < s.pagesHeld p + (inputPages r.k r.generated + outputPages r.k r.softOutput)
  | .noEntry      => s.jobs.length == 32
  | .noSpace      => s.free.length < inputPages r.k r.generated + outputPages r.k r.softOutput
  | _ => false

/-- The tests of Table 4-1, in order. -/
def triggerOrder : List RespCode := [.parityFault, .permBad, .over, .short]

/-- When a test of Table 4-1 fails, by its response. -/
def Checker.triggerFails (c : Checker) : RespCode → Bool
  | .parityFault => c.parityFault
  | .permBad     => c.permFault
  | .over        => c.overflow
  | .short       => [Stream.sys, .par1, .par2, .perm].any fun st => c.received.get st < c.expected.get st
  | _ => false

/-! ### The event that frees a job (R15) -/

/-- The state after a job is freed, as R15 gives it tie by tie; `f` is what the same event does to the owner's port unit. -/
def State.freed (s : State) (j : Job) (f : PortUnit → PortUnit) : State :=
  { s with
    jobs := s.jobs.filter fun k => !(k.owner == j.owner && k.tag == j.tag)
    free := s.free ++ (j.inputPages ++ j.output)
    queues := s.queues.set j.owner
      (if j.isQueued then (s.queue j.owner).filter (· != j.tag) else s.queue j.owner)
    ports := s.ports.set j.owner (f
      { s.port j.owner with
        slot := if j.isStaging then none else (s.port j.owner).slot
        checker := if j.isStaging then Checker.cleared else (s.port j.owner).checker
        window := if j.isDelivering then none else (s.port j.owner).window }) }

/-! ### A working engine -/

/-- An engine in a stage, bound to a live job that names it, with its decode parameters. -/
structure State.Working (s : State) (e : EngineId) (stage : Stage) (j : Job) (pr : Params) : Prop where
  released : s.deviceReset = false
  stage    : (s.engine e).stage = stage
  bound    : (s.engine e).bound = some ⟨j.owner, j.tag⟩
  found    : s.findJob j.owner j.tag = some j
  named    : j.engine = some e
  params   : (s.engine e).params = some pr

/-! ### A port reset, but for the port's own unit (R22, R39, R128) -/

/-- The jobs of the port that no engine is working on are freed, in ascending order of tag, their QUEUED tags leave the
ready queue, and its DECODING jobs become ABORTING. -/
structure State.JobsReset (s t : State) (p : Port) (gone : List Job) : Prop where
  which  : gone.Perm (s.jobs.filter fun j => j.owner == p && !j.onEngine)
  order  : gone.Pairwise fun a b => a.tag.toNat < b.tag.toNat
  jobs   : t.jobs = (s.jobs.filter fun j => !(j.owner == p && !j.onEngine)).map fun j =>
             if j.owner = p then j.toAborting else j
  free   : t.free = s.free ++ gone.flatMap Job.pages
  queue  : t.queue p = (s.queue p).filter fun tag => !gone.any fun j => j.isQueued && j.tag == tag
  queues : ∀ q, q ≠ p → t.queue q = s.queue q
  others : ∀ q, q ≠ p → t.port q = s.port q
  rest   : t = { s with jobs := t.jobs, free := t.free, queues := t.queues, ports := t.ports }

/-- The port unit after a port reset (Table 6-4), its response words and its reset line apart. -/
def PortUnit.cleared (u : PortUnit) : PortUnit :=
  { slot := none, checker := Checker.cleared, window := none, notices := [], raw := 0#5, enables := u.enables,
    holdLimit := u.holdLimit, param := Vector.replicate 6 0#32, taint := false, resp := u.resp, resetHeld := u.resetHeld,
    bus := u.bus }

/-- An engine in IDLE (R89), which keeps its permutation memory and its working values (R97, R115). -/
def Engine.idled (g : Engine) : Engine :=
  { stage := .idle, bound := none, params := none, iteration := 0, streak := 0, lastChecksum := none, lastQuality := none,
    pending := none, abortSeen := false, permMemory := g.permMemory, work := g.work }

end Sys2Proof.Machine
end

