-- ==== Sys2Proof/Certificates/Slice0/Obligations.lean ====
section
/-! DEFINITION. The statements for the provers, in the order of OBLIGATIONS.json. A result is stated as the next state that a
command answers, under conditions on the state and the operands alone; the equation is also the command's frame. -/

open Sys2Proof Sys2Proof.Machine

/-! ### The machine -/

/-- The queue is served first in, first out; an empty queue idles (log 6, the model's choice). -/
def Obligations.StepRunsFrontCommand : Prop :=
  (∀ (c : Instr) (rest : List Instr) (s : State),
    step { s with pending := c :: rest } = exec c { s with pending := rest }) ∧
  (∀ s : State, s.pending = [] → step s = .next s)

/-- Every row answers a next state in every state (log 5, 20), and the waiting commands neither matter to it nor change. -/
def Obligations.EveryCommandCompletes : Prop :=
  ∀ (c : Instr) (s : State), ∃ t, exec c s = .next t ∧ t.pending = s.pending ∧
    ∀ waiting, exec c { s with pending := waiting } = .next { t with pending := waiting }

/-! ### The port bus -/

/-- R156, Table 8-1: lines 1 to 3, line 4 and line 5, for every row that is an access. -/
def Obligations.AccessAnsweredByTable81 : Prop :=
  (∀ (c : Instr) (s : State) (p : Port) (a : WordAddr) (w : Word) (bus : WriteParity),
    asWrite c = some (p, a, w, bus) →
    (¬ s.Performs p → exec c s =
      .next (s.withPort p { s.port p with bus := .wrote (writeTarget a).crosses true })) ∧
    (s.Performs p → addrParityGood a true bus.addr = false → exec c s =
      .next (s.withPort p { (s.port p).setBit .addrParity with bus := .wrote (writeTarget a).crosses true })) ∧
    (s.Performs p → addrParityGood a true bus.addr = true →
      ∃ t, t = s.performWrite p (writeTarget a) w (dataParityGood w bus.data) ∧
        exec c s = .next (t.withPort p { t.port p with bus := .wrote (writeTarget a).crosses false }))) ∧
  (∀ (c : Instr) (s : State) (p : Port) (a : WordAddr) (par : Bool), asRead c = some (p, a, par) →
    (¬ s.Performs p → exec c s =
      .next (s.withPort p { s.port p with bus := .read true 0#32 0xF#4 })) ∧
    (s.Performs p → addrParityGood a false par = false → exec c s =
      .next (s.withPort p { (s.port p).setBit .addrParity with bus := .read true 0#32 0xF#4 })) ∧
    (s.Performs p → addrParityGood a false par = true →
      ∃ t data, exec c s = .next t ∧ t = s.performRead p (readTarget a) ∧
        (t.port p).bus = .read false data (generatedParity data)))

/-- The parity bits are odd parity: over the fourteen address lines, the direction line and the bit itself (R158), and over
each byte with its bit (R159). That bit b of the four is the bit of byte b is the model's choice (log 22). -/
def Obligations.ParityIsOdd : Prop :=
  (∀ (a : WordAddr) (isWrite par : Bool), addrParityGood a isWrite par = true ↔
    ((List.range 14).countP (fun i => a.getLsbD i) + isWrite.toNat + par.toNat) % 2 = 1) ∧
  (∀ (w : Word) (par : BitVec 4), dataParityGood w par = true ↔ ∀ b < 4,
    byteOnes w par b % 2 = 1)

/-- R159, Table 8-3: what a write does to each target when a byte with its parity bit holds an even number of ones, and the
parity of read data. That bit b of the four is the bit of byte b is the model's choice (log 22). -/
def Obligations.BadDataParityByTable83 : Prop :=
  (∀ (c : Instr) (s : State) (p : Port) (a : WordAddr) (w : Word) (bus : WriteParity),
    asWrite c = some (p, a, w, bus) → s.Performs p → addrParityGood a true bus.addr = true →
    (∃ b < 4, byteOnes w bus.data b % 2 = 0) →
    exec c s = .next (s.withPort p (match writeTarget a with
      | .param _ => { (s.port p).setBit .dataParity with taint := true, bus := .wrote false false }
      | .cmd =>
        { (s.port p).setBit .dataParity with
          taint := false
          resp := { r0 := resp0 .cmdParity (w.extractLsb' 0 8) ((s.port p).param[0].extractLsb' 0 12)
                    r1 := 0#30 ++ bit (s.port p).taint ++ 1#1, r2 := 0#32, r3 := 0#32 }
          bus := .wrote true false }
      | .stream _ =>
        if (s.port p).slot.isSome then
          { (s.port p).setBit .dataParity with
            checker := { (s.port p).checker with parityFault := true }, bus := .wrote true false }
        else { ((s.port p).setBit .strayWrite).setBit .dataParity with bus := .wrote true false }
      | .stray => { ((s.port p).setBit .strayWrite).setBit .dataParity with bus := .wrote false false }
      | .settings | .statusSet | .statusClear | .enableSet | .enableClear =>
        { (s.port p).setBit .dataParity with bus := .wrote false false }))) ∧
  (∀ (c : Instr) (s : State) (p : Port) (a : WordAddr) (par : Bool), asRead c = some (p, a, par) →
    s.PerformedRead p a par → ∃ t data bits, exec c s = .next t ∧ (t.port p).bus = .read false data bits ∧
      ∀ b < 4, byteOnes data bits b % 2 = 1)

/-- R164: the port unit's three tests of a CMD write, in order. -/
def Obligations.CmdWriteTestedInOrder : Prop :=
  ∀ (c : Instr) (s : State) (p : Port) (w : Word) (bus : WriteParity), asWrite c = some (p, cmdAddr, w, bus) →
    s.Performs p → addrParityGood cmdAddr true bus.addr = true →
    let good := dataParityGood w bus.data
    let code : BitVec 8 := w.extractLsb' 0 8
    let tag : Tag := (s.port p).param[0].extractLsb' 0 12
    (good = false ∨ (s.port p).taint = true → exec c s =
        .next (s.withPort p { (if good then s.port p else (s.port p).setBit .dataParity).told .cmdParity code tag
          (0#30 ++ bit (s.port p).taint ++ bit (!good)) 0 0 with taint := false })) ∧
    (good = true → (s.port p).taint = false → code = 0 ∨ 8 ≤ code.toNat →
      exec c s = .next (s.told p .badCommand code tag 0 0 0)) ∧
    (good = true → (s.port p).taint = false → 1 ≤ code.toNat ∧ code.toNat ≤ 7 →
      ∃ t, t = s.takeCommand p code ∧
        exec c s = .next (t.withPort p { t.port p with bus := .wrote true false }))

/-- R162: writes, reads, commands and resets of the parameter words. -/
def Obligations.ParamWordsKeepLastGoodWrite : Prop :=
  (∀ (s : State) (p : Port) (i : Fin 6) (w : Word) (bus : WriteParity), s.GoodWrite p (paramAddr i) w bus →
    exec (.paramWrite p i w bus) s =
        .next (s.withPort p { s.port p with param := (s.port p).param.set i w, bus := .wrote false false })) ∧
  (∀ (s : State) (p : Port) (i : Fin 6) (w : Word) (bus : WriteParity), s.Performs p →
    addrParityGood (paramAddr i) true bus.addr = true → dataParityGood w bus.data = false →
    exec (.paramWrite p i w bus) s =
        .next (s.withPort p { (s.port p).setBit .dataParity with taint := true, bus := .wrote false false })) ∧
  (∀ (s : State) (p : Port) (i : Fin 6) (par : Bool), s.PerformedRead p (paramAddr i) par →
    exec (.strayRead p (paramAddr i) par) s =
        .next (s.withPort p { s.port p with
          bus := .read false ((s.port p).param.get i) (generatedParity ((s.port p).param.get i)) })) ∧
  (∀ (c : Instr) (s t : State) (p : Port) (a : WordAddr) (w : Word) (bus : WriteParity),
    asWrite c = some (p, a, w, bus) → ¬ (s.Performs p ∧ addrParityGood a true bus.addr = true) →
    exec c s = .next t → (t.port p).param = (s.port p).param) ∧
  (∀ (s t : State) (p : Port) (reserved : BitVec 24) (bus : WriteParity),
    ∀ c ∈ [Instr.openJob p reserved bus, .trigger p reserved bus, .abort p reserved bus, .collect p reserved bus,
      .release p reserved bus, .query p reserved bus], exec c s = .next t → (t.port p).param = (s.port p).param) ∧
  (∀ (s t : State) (p : Port) (c : Instr),
    (∃ held, c = .deviceReset held) ∨ (∃ held, c = .portResetLineAssertion p held) ∨
      (∃ reserved bus, c = .portReset p reserved bus ∧ s.PassesPort p reserved 7 bus) →
    exec c s = .next t → (t.port p).param = Vector.replicate 6 0#32)

/-- R163: the one event that sets the taint, the events that clear it, and no other; the CMD write that meets it is refused
CMD_PARITY, code 18. -/
def Obligations.TaintSetAndCleared : Prop :=
  ∀ (c : Instr) (s t : State) (p : Port), exec c s = .next t →
    let clears := (∃ w bus, asWrite c = some (p, cmdAddr, w, bus) ∧ s.Performs p ∧
        addrParityGood cmdAddr true bus.addr = true) ∨
      (∃ held, c = .portResetLineAssertion p held) ∨ (∃ held, c = .deviceReset held) ∨ c = .powerOn
    let sets := ∃ i w bus, asWrite c = some (p, paramAddr i, w, bus) ∧ s.Performs p ∧
      addrParityGood (paramAddr i) true bus.addr = true ∧ dataParityGood w bus.data = false
    (clears → (t.port p).taint = false) ∧ (sets → (t.port p).taint = true) ∧
    (¬ clears → ¬ sets → (t.port p).taint = (s.port p).taint) ∧
    (∀ w bus, asWrite c = some (p, cmdAddr, w, bus) → s.Performs p → addrParityGood cmdAddr true bus.addr = true →
      (s.port p).taint = true → (t.port p).resp.r0.toNat % 32 = 18)

/-- R168: SETTINGS. -/
def Obligations.SettingsHoldsHoldLimit : Prop :=
  (∀ (s : State) (p : Port) (w : Word) (bus : WriteParity), s.GoodWrite p settingsAddr w bus →
    exec (.settingsWrite p w bus) s =
        .next (s.withPort p { s.port p with
          holdLimit := BitVec.ofNat 12 (w.toNat % 4096), bus := .wrote false false })) ∧
  (∀ (s : State) (p : Port) (w : Word) (bus : WriteParity), s.Performs p →
    addrParityGood settingsAddr true bus.addr = true → dataParityGood w bus.data = false →
    exec (.settingsWrite p w bus) s =
        .next (s.withPort p { (s.port p).setBit .dataParity with bus := .wrote false false })) ∧
  (∀ (s : State) (p : Port) (par : Bool), s.PerformedRead p settingsAddr par →
    ∃ t data, exec (.strayRead p settingsAddr par) s = .next t ∧ data.toNat = (s.port p).holdLimit.toNat ∧
      t = (s.withPort p { s.port p with bus := .read false data (generatedParity data) })) ∧
  (∀ (s t : State) (held : PerPort Bool) (p : Port), exec (.deviceReset held) s = .next t →
    (t.port p).holdLimit = 250#12) ∧
  (∀ (s t : State) (p : Port) (c : Instr),
    (∃ held, c = .portResetLineAssertion p held) ∨ (∃ reserved bus, c = .portReset p reserved bus) →
    exec c s = .next t → (t.port p).holdLimit = (s.port p).holdLimit)

/-- R180 and R182: each named position acts on its bit, every other bit and everything else stay; bad data parity changes no
bit; ENABLE reads the enables and refuses writes; what the resets leave of them. -/
def Obligations.StatusAndEnableWrites : Prop :=
  (∀ (s : State) (p : Port) (w : Word) (bus : WriteParity), s.GoodWrite p statusSetAddr w bus →
    ∃ raw, exec (.statusSet p w bus) s = .next (s.withPort p { s.port p with raw := raw, bus := .wrote false false }) ∧
      ∀ i < 5, raw.getLsbD i = ((s.port p).raw.getLsbD i || w.getLsbD (i + 1))) ∧
  (∀ (s : State) (p : Port) (w : Word) (bus : WriteParity), s.GoodWrite p statusClearAddr w bus →
    ∃ raw, exec (.statusClear p w bus) s =
        .next (s.withPort p { s.port p with raw := raw, bus := .wrote false false }) ∧
      ∀ i < 5, raw.getLsbD i = ((s.port p).raw.getLsbD i && !w.getLsbD (i + 1))) ∧
  (∀ (s : State) (p : Port) (w : Word) (bus : WriteParity), s.GoodWrite p enableSetAddr w bus →
    ∃ enables, exec (.enableSet p w bus) s =
        .next (s.withPort p { s.port p with enables := enables, bus := .wrote false false }) ∧
      ∀ i < 6, enables.getLsbD i = ((s.port p).enables.getLsbD i || w.getLsbD i)) ∧
  (∀ (s : State) (p : Port) (w : Word) (bus : WriteParity), s.GoodWrite p enableClearAddr w bus →
    ∃ enables, exec (.enableClear p w bus) s =
        .next (s.withPort p { s.port p with enables := enables, bus := .wrote false false }) ∧
      ∀ i < 6, enables.getLsbD i = ((s.port p).enables.getLsbD i && !w.getLsbD i)) ∧
  (∀ (s : State) (p : Port) (w : Word) (bus : WriteParity), s.Performs p → dataParityGood w bus.data = false →
    ∀ c ∈ [(Instr.statusSet p w bus, statusSetAddr), (.statusClear p w bus, statusClearAddr),
      (.enableSet p w bus, enableSetAddr), (.enableClear p w bus, enableClearAddr)],
    addrParityGood c.2 true bus.addr = true →
    exec c.1 s = .next (s.withPort p { (s.port p).setBit .dataParity with bus := .wrote false false })) ∧
  (∀ (s : State) (p : Port) (a : WordAddr), 4 * a.toNat = 0x14 →
    (∀ w bus, s.GoodWrite p a w bus → exec (.strayWrite p a w bus) s =
      .next (s.withPort p { (s.port p).setBit .strayWrite with bus := .wrote false false })) ∧
    (∀ par, s.PerformedRead p a par → ∃ data, (∀ i < 32, data.getLsbD i = (s.port p).enables.getLsbD i) ∧
      exec (.strayRead p a par) s =
        .next (s.withPort p { s.port p with bus := .read false data (generatedParity data) }))) ∧
  (∀ (s t : State) (p : Port) (c : Instr), exec c s = .next t →
    ((∃ held, c = .deviceReset held) → (t.port p).enables = 0#6) ∧
    ((∃ held, c = .portResetLineAssertion p held) ∨ (∃ reserved bus, c = .portReset p reserved bus) →
      (t.port p).enables = (s.port p).enables))

/-- Sections 9.2 and 9.3: the live bit, the sticky bits, ENABLED_STATUS and the line. -/
def Obligations.LineFollowsEnabledStatus : Prop :=
  ∀ (s : State) (p : Port),
    ((s.port p).statusBits.getLsbD 0 = true ↔ (s.port p).notices ≠ []) ∧
    (∀ b : StatusBit, (s.port p).statusBits.getLsbD b.position = (s.port p).has b) ∧
    (∀ i < 6, (s.port p).enabledStatus.getLsbD i =
      ((s.port p).statusBits.getLsbD i && (s.port p).enables.getLsbD i)) ∧
    (s.irq p = true ↔ ∃ i < 6, (s.port p).statusBits.getLsbD i = true ∧ (s.port p).enables.getLsbD i = true)

/-- R176 for the rows NOTICE_READ and STRAY_WRITE at NOTICE: a performed read pops the queue, a read that is not performed
pops nothing, a write pops nothing. -/
def Obligations.NoticeReadPops : Prop :=
  (∀ (s : State) (p : Port) (par : Bool) (n : Notice) (rest : List Notice), s.PerformedRead p noticeAddr par →
    (s.port p).notices = n :: rest →
    exec (.noticeRead p par) s =
        .next (s.withPort p { s.port p with notices := rest, bus := .read false n.word (generatedParity n.word) })) ∧
  (∀ (s : State) (p : Port) (par : Bool), s.PerformedRead p noticeAddr par → (s.port p).notices = [] →
    exec (.noticeRead p par) s = .next (s.withPort p { s.port p with bus := .read false 0#32 0xF#4 })) ∧
  (∀ (s t : State) (p : Port) (par : Bool), ¬ s.PerformedRead p noticeAddr par → exec (.noticeRead p par) s = .next t →
    (t.port p).notices = (s.port p).notices ∧ (t.port p).bus = .read true 0#32 0xF#4 ∧
    (s.Performs p → (t.port p).has .addrParity = true)) ∧
  (∀ (s : State) (p : Port) (w : Word) (bus : WriteParity), s.GoodWrite p noticeAddr w bus →
    exec (.strayWrite p noticeAddr w bus) s =
        .next (s.withPort p { (s.port p).setBit .strayWrite with bus := .wrote false false }))

/-- R147: what a read of the result window returns. -/
def Obligations.WindowReadServesOutput : Prop :=
  (∀ (s : State) (p : Port) (offset : BitVec 12) (par : Bool) (tag : Tag) (j : Job),
    s.PerformedRead p (windowAddr offset) par → (s.port p).window = some tag → s.findJob p tag = some j →
    (4 * offset.toNat < hardBytes j.params.k + softBytes j.params.k j.params.softOutput →
      ∃ data : Word, (∀ b < 4, byteOf data b = s.readArea j.output (4 * offset.toNat + b)) ∧
        exec (.resultWindowRead p offset par) s =
            .next (s.withPort p { s.port p with bus := .read false data (generatedParity data) })) ∧
    (hardBytes j.params.k + softBytes j.params.k j.params.softOutput ≤ 4 * offset.toNat →
      exec (.resultWindowRead p offset par) s =
          .next (s.withPort p { (s.port p).setBit .strayRead with bus := .read false 0#32 0xF#4 }))) ∧
  (∀ (s : State) (p : Port) (offset : BitVec 12) (par : Bool), s.PerformedRead p (windowAddr offset) par →
    (s.port p).window = none →
    exec (.resultWindowRead p offset par) s =
        .next (s.withPort p { (s.port p).setBit .strayRead with bus := .read false 0#32 0xF#4 })) ∧
  (∀ (s : State) (pages : List Page) (o : Nat) (pg : Page), pages[o / 1024]? = some pg →
    s.readArea pages o = if s.isClean pg then 0#8 else s.mem.read (1024 * pg.val + o % 1024))

/-- R160: a stray access, of whatever row. -/
def Obligations.StrayAccessesOnlyMark : Prop :=
  (∀ (c : Instr) (s : State) (p : Port) (a : WordAddr) (w : Word) (bus : WriteParity),
    asWrite c = some (p, a, w, bus) → writeTarget a = .stray → s.GoodWrite p a w bus →
    exec c s = .next (s.withPort p { (s.port p).setBit .strayWrite with bus := .wrote false false })) ∧
  (∀ (c : Instr) (s : State) (p : Port) (a : WordAddr) (par : Bool), asRead c = some (p, a, par) →
    readTarget a = .stray → s.PerformedRead p a par →
    exec c s = .next (s.withPort p { (s.port p).setBit .strayRead with bus := .read false 0#32 0xF#4 }))

/-- The words whose reads have no row of their own return their values and change nothing (Table 8-2; log 9). -/
def Obligations.PlainReadsReturnWords : Prop :=
  ∀ (s : State) (p : Port) (a : WordAddr) (par : Bool), s.PerformedRead p a par →
    let returns (data : Word) := exec (.strayRead p a par) s =
        .next (s.withPort p { s.port p with bus := .read false data (generatedParity data) })
    (4 * a.toNat = 0x00 → returns (identWord s.profile p)) ∧
    (4 * a.toNat = 0x04 → returns ((s.port p).holdLimit.setWidth 32)) ∧
    (4 * a.toNat = 0x08 → returns ((s.port p).statusBits.setWidth 32)) ∧
    (4 * a.toNat = 0x14 → returns ((s.port p).enables.setWidth 32)) ∧
    (4 * a.toNat = 0x20 → returns ((s.port p).enabledStatus.setWidth 32)) ∧
    (∀ i : Fin 6, 4 * a.toNat = 0x40 + 4 * i.val → returns ((s.port p).param.get i)) ∧
    (4 * a.toNat = 0x70 → returns (s.port p).resp.r0) ∧ (4 * a.toNat = 0x74 → returns (s.port p).resp.r1) ∧
    (4 * a.toNat = 0x78 → returns (s.port p).resp.r2) ∧ (4 * a.toNat = 0x7C → returns (s.port p).resp.r3)

/-- Table 10-12: IDENT as a sum of its fields. -/
def Obligations.IdentFields : Prop :=
  ∀ (pf : Profile) (p : Port), pf.enables p = true →
    (identWord pf p).toNat = 0x0440 + 2 ^ 16 * 1 + 2 ^ 20 * p.letter.toNat + 2 ^ 22 * pf.number.toNat +
      2 ^ 24 * (pf.entryCeiling p / 4) + 2 ^ 28 * (pf.pageCeiling p / 16) ∧
    pf.entryCeiling p % 4 = 0 ∧ pf.pageCeiling p % 16 = 0 ∧ 0 < pf.entryCeiling p ∧ 0 < pf.pageCeiling p

/-- Table 10-1: what each offset reaches. -/
def Obligations.PortWindowMap : Prop :=
  ∀ a : WordAddr, let o := 4 * a.toNat
    ((writeTarget a = .settings ↔ o = 0x04) ∧ (writeTarget a = .statusSet ↔ o = 0x0C) ∧
      (writeTarget a = .statusClear ↔ o = 0x10) ∧ (writeTarget a = .enableSet ↔ o = 0x18) ∧
      (writeTarget a = .enableClear ↔ o = 0x1C) ∧ (∀ i : Fin 6, writeTarget a = .param i ↔ o = 0x40 + 4 * i.val) ∧
      (writeTarget a = .cmd ↔ o = 0x60) ∧
      (∀ st, writeTarget a = .stream st ↔
        0x1000 * (streamNumber st + 1) ≤ o ∧ o < 0x1000 * (streamNumber st + 2))) ∧
    ((readTarget a = .ident ↔ o = 0x00) ∧ (readTarget a = .settings ↔ o = 0x04) ∧ (readTarget a = .status ↔ o = 0x08) ∧
      (readTarget a = .enable ↔ o = 0x14) ∧ (readTarget a = .enabledStatus ↔ o = 0x20) ∧
      (readTarget a = .notice ↔ o = 0x24) ∧ (∀ i : Fin 6, readTarget a = .param i ↔ o = 0x40 + 4 * i.val) ∧
      (∀ i : Fin 4, readTarget a = .resp i ↔ o = 0x70 + 4 * i.val) ∧
      (∀ x, readTarget a = .window x ↔ 0x8000 ≤ o ∧ o ≤ 0xBFFF ∧ x = o - 0x8000))

/-! ### OPEN -/

/-- R43 and R45: the first failing check of Table 3-2, with the first failing condition of Table 3-3, answers, and nothing
else changes. -/
def Obligations.OpenRefusedByFirstCheck : Prop :=
  ∀ (s : State) (p : Port) (reserved : BitVec 24) (bus : WriteParity) (code : RespCode),
    s.PassesPort p reserved 1 bus →
    let r := openRecord (s.port p).param
    openOrder.find? (s.openFails p r) = some code →
    exec (.openJob p reserved bus) s = .next (s.told p code 1 r.tag
      (if code = .param then BitVec.ofNat 32 ((paramOrder.find? r.fails).getD 0) else 0)
      (if code = .quotaPages ∨ code = .noSpace then
        BitVec.ofNat 32 (inputPages r.k r.generated + 2 ^ 16 * outputPages r.k r.softOutput) else 0) 0)

/-- R44: an OPEN that passes every check creates the job, in one event, with the params of R4 by the codes of Table 10-2
(checksum_kind 3 fails a check). -/
def Obligations.OpenCreatesStagingJob : Prop :=
  ∀ (s : State) (p : Port) (reserved : BitVec 24) (bus : WriteParity), s.PassesPort p reserved 1 bus →
    let r := openRecord (s.port p).param
    let inp := inputPages r.k r.generated
    let outp := outputPages r.k r.softOutput
    openOrder.find? (s.openFails p r) = none →
    ∃ t, exec (.openJob p reserved bus) s = .next t ∧
      (∀ pg, t.isClean pg = (s.isClean pg || decide (pg ∈ s.free.take (inp + outp)))) ∧
      t = { s with
        jobs := s.jobs ++ [{ owner := p, tag := r.tag
                             params := {
                               k := r.k, minIter := r.minIter, maxIter := r.maxIter
                               stopRule := match r.stopRule with
                                 | 0 => .maxOnly
                                 | 1 => .checksum
                                 | 2 => .quality
                                 | _ => .either
                               checksumKind := match r.checksumKind with
                                 | 0 => .none
                                 | 1 => .c16
                                 | _ => .c24
                               requiredMatches := r.requiredMatches, qualityThreshold := r.qualityThreshold
                               reportQuality := r.reportQuality, softOutput := r.softOutput
                               permSource := if r.generated then .generated r.f1 r.f2 else .client
                               autoTrigger := r.autoTrigger }
                             output := (s.free.drop inp).take outp, abortRequested := false
                             phase := .staging (s.free.take inp) }]
        free := s.free.drop (inp + outp)
        clean := t.clean
        ports := s.ports.set p ({ s.port p with
          slot := some r.tag
          checker := { k := r.k, generated := r.generated, autoTrigger := r.autoTrigger
                       expected := ⟨softWords r.k, softWords r.k, softWords r.k, permWords r.k r.generated⟩
                       received := ⟨0, 0, 0, 0⟩, clamp := 0, overflow := false, parityFault := false
                       permFault := false, firstBad := none, seen := 0#8192 } }.told .ok 1 r.tag
            (BitVec.ofNat 32 (softWords r.k + 2 ^ 16 * permWords r.k r.generated))
            (BitVec.ofNat 32 (inp + 2 ^ 16 * outp)) 0) }

/-- Sections 2.1 and 2.3: a created job's pages read 0 throughout, and every byte of every other page reads as before. -/
def Obligations.OpenedPagesReadZero : Prop :=
  ∀ (s t : State) (p : Port) (reserved : BitVec 24) (bus : WriteParity), s.PassesPort p reserved 1 bus →
    let r := openRecord (s.port p).param
    let total := inputPages r.k r.generated + outputPages r.k r.softOutput
    openOrder.find? (s.openFails p r) = none → exec (.openJob p reserved bus) s = .next t →
    (∀ pg x, x < 1024 → t.readPage pg x = if pg ∈ s.free.take total then 0#8 else s.readPage pg x) ∧
    ∃ j, t.findJob p r.tag = some j ∧ (∀ o, t.readArea j.inputPages o = 0#8) ∧ (∀ o, t.readArea j.output o = 0#8) ∧
      j.inputPages.length = inputPages r.k r.generated ∧ j.output.length = outputPages r.k r.softOutput

/-- R27 with the Conventions: every count is the smallest that holds its units, and the ranges of an accepted job. -/
def Obligations.PageCountsOfConventions : Prop :=
  ∀ (k : Nat) (generated soft : Bool),
    let least (n unit amount : Nat) := amount ≤ unit * n ∧ unit * n < amount + unit
    let H := hardBytes k
    let S := softBytes k soft
    least (softWords k) 4 (k + 4) ∧ (generated = false → least (permWords k generated) 2 k) ∧
    (generated = true → permWords k generated = 0) ∧ (∃ n, H = 4 * n ∧ least n 32 k) ∧
    (soft = true → ∃ n, S = 4 * n ∧ least n 4 k) ∧ (soft = false → S = 0) ∧
    least (inputPages k generated) 1024 (3 * 4 * softWords k + 4 * permWords k generated) ∧
    least (outputPages k soft) 1024 (H + S) ∧
    (40 ≤ k → k ≤ 8192 → 1 ≤ inputPages k generated ∧ inputPages k generated ≤ 41 ∧ 1 ≤ outputPages k soft ∧
      outputPages k soft ≤ 9 ∧ 2 ≤ inputPages k generated + outputPages k soft ∧
      inputPages k generated + outputPages k soft ≤ 50)

/-! ### Commands that name a tag -/

/-- Section 1.1: a tag that no live job of the issuing port carries is answered NO_JOB, and nothing else changes. -/
def Obligations.UnknownTagAnsweredNoJob : Prop :=
  ∀ (s : State) (p : Port) (reserved : BitVec 24) (bus : WriteParity),
    ∀ c ∈ [(Instr.trigger p reserved bus, (2 : BitVec 8)), (.abort p reserved bus, 3), (.collect p reserved bus, 4),
      (.release p reserved bus, 5), (.query p reserved bus, 6)],
    s.PassesPort p reserved c.2 bus →
    let tag : Tag := (s.port p).param[0].extractLsb' 0 12
    (∀ j ∈ s.jobs, ¬ (j.owner = p ∧ j.tag = tag)) → exec c.1 s = .next (s.told p .noJob c.2 tag 0 0 0)

/-- R69 and R72: a TRIGGER of a job that is not STAGING, and one refused by the first failing test of Table 4-1. -/
def Obligations.TriggerRefusedByFirstTest : Prop :=
  ∀ (s : State) (p : Port) (reserved : BitVec 24) (bus : WriteParity) (j : Job), s.PassesPort p reserved 2 bus →
    let tag : Tag := (s.port p).param[0].extractLsb' 0 12
    let c := (s.port p).checker
    s.findJob p tag = some j →
    (j.isStaging = false →
      exec (.trigger p reserved bus) s = .next (s.told p .wrongState 2 tag (j.phase.code.setWidth 32) 0 0)) ∧
    (j.isStaging = true → ∀ code, triggerOrder.find? c.triggerFails = some code →
      ∃ r1 r2, exec (.trigger p reserved bus) s = .next (s.told p code 2 tag r1 r2 0) ∧
        r1.getLsbD 0 = c.parityFault ∧ r1.getLsbD 1 = c.permFault ∧ r1.getLsbD 2 = c.overflow ∧ r1.getLsbD 3 = false ∧
        (∀ st, r1.getLsbD (4 + streamNumber st) = decide (c.received.get st < c.expected.get st)) ∧
        (∀ i, 8 ≤ i → r1.getLsbD i = false) ∧ (c.permFault = false → r2 = 0) ∧
        (∀ pos, c.permFault = true → c.firstBad = some pos →
          r2 = BitVec.ofNat 32 (pos.word % 4096 + 4096 * pos.half.code.toNat)))

/-- R71: a TRIGGER that passes every test moves the job to QUEUED, in one event. -/
def Obligations.TriggerQueuesJob : Prop :=
  ∀ (s : State) (p : Port) (reserved : BitVec 24) (bus : WriteParity) (j : Job) (input : List Page),
    s.PassesPort p reserved 2 bus → s.IdsDistinct →
    let tag : Tag := (s.port p).param[0].extractLsb' 0 12
    let c := (s.port p).checker
    s.findJob p tag = some j → j.phase = .staging input → triggerOrder.find? c.triggerFails = none →
    exec (.trigger p reserved bus) s = .next { s with
      jobs := s.jobs.map fun k => if k.owner = p ∧ k.tag = tag then { j with phase := .queued c.clamp input } else k
      queues := s.queues.set p (s.queue p ++ [tag])
      ports := s.ports.set p ({ s.port p with slot := none, checker := Checker.cleared }.told .ok 2 tag
        (BitVec.ofNat 32 c.clamp) (BitVec.ofNat 32 ((s.queue p).length + 1)) 0) }

/-- Table 6-1, R117 to R120: ABORT by the state of the job it finds. -/
def Obligations.AbortAnswersByState : Prop :=
  ∀ (s : State) (p : Port) (reserved : BitVec 24) (bus : WriteParity), s.PassesPort p reserved 3 bus →
    s.IdsDistinct →
    let tag : Tag := (s.port p).param[0].extractLsb' 0 12
    (s.findJob p tag = none → exec (.abort p reserved bus) s = .next (s.told p .noJob 3 tag 0 0 0)) ∧
    ∀ j, s.findJob p tag = some j →
    (j.onEngine = false →
      exec (.abort p reserved bus) s = .next (s.freed j (·.told .ok 3 tag (j.phase.code.setWidth 32) 0 0))) ∧
    (∀ clamp input e, j.phase = .decoding clamp input e →
      exec (.abort p reserved bus) s = .next { s with
        jobs := s.jobs.map fun k =>
          if k.owner = p ∧ k.tag = tag then { j with phase := .aborting clamp input e, abortRequested := true } else k
        ports := s.ports.set p ((s.port p).told .accepted 3 tag 3 (e.code.setWidth 32) 0) }) ∧
    (∀ clamp input e, j.phase = .aborting clamp input e →
      exec (.abort p reserved bus) s = .next (s.told p .accepted 3 tag 4 (e.code.setWidth 32) 0))

/-- Sections 1.3, 1.4 and 2.3: what an ABORT or a RELEASE that frees a job leaves of the counts, and the tag is free. -/
def Obligations.FreeingLowersCounts : Prop :=
  ∀ (s t : State) (p : Port) (reserved : BitVec 24) (bus : WriteParity) (j : Job), s.IdsDistinct →
    let tag : Tag := (s.port p).param[0].extractLsb' 0 12
    s.findJob p tag = some j →
    (exec (.abort p reserved bus) s = .next t ∧ s.PassesPort p reserved 3 bus ∧ j.onEngine = false) ∨
      (exec (.release p reserved bus) s = .next t ∧ s.PassesPort p reserved 5 bus ∧ j.outcome.isSome = true) →
    t.findJob p tag = none ∧ t.jobs.length + 1 = s.jobs.length ∧ t.liveCount p + 1 = s.liveCount p ∧
    t.pagesHeld p + j.pages.length = s.pagesHeld p ∧ t.free.length = s.free.length + j.pages.length ∧
    ∀ q, q ≠ p → t.liveCount q = s.liveCount q ∧ t.pagesHeld q = s.pagesHeld q ∧ t.port q = s.port q ∧
      t.queue q = s.queue q ∧ ∀ u, t.findJob q u = s.findJob q u

/-- R141 and R142, Table 7-3: COLLECT by the state of the job it finds. -/
def Obligations.CollectAnswersByState : Prop :=
  ∀ (s : State) (p : Port) (reserved : BitVec 24) (bus : WriteParity), s.PassesPort p reserved 4 bus →
    s.IdsDistinct →
    let tag : Tag := (s.port p).param[0].extractLsb' 0 12
    (s.findJob p tag = none → exec (.collect p reserved bus) s = .next (s.told p .noJob 4 tag 0 0 0)) ∧
    ∀ j, s.findJob p tag = some j →
    let length := hardBytes j.params.k + softBytes j.params.k j.params.softOutput
    let ok (u : PortUnit) (o : Outcome) := u.told .ok 4 tag (o.fields ++ 0#8)
      (BitVec.ofNat 32 (o.clampCount % 65536 + 65536 * o.engine.code.toNat)) (BitVec.ofNat 32 length)
    (j.isStaging = true ∨ j.isAborting = true →
      exec (.collect p reserved bus) s = .next (s.told p .wrongState 4 tag (j.phase.code.setWidth 32) 0 0)) ∧
    (j.isQueued = true ∨ (j.onEngine = true ∧ j.isAborting = false) →
      exec (.collect p reserved bus) s = .next (s.told p .pending 4 tag (j.phase.code.setWidth 32) 0 0)) ∧
    (∀ o d raised, j.phase = .held o d raised → (s.port p).window = none →
      exec (.collect p reserved bus) s = .next { s with
        jobs := s.jobs.map fun k => if k.owner = p ∧ k.tag = tag then { j with phase := .delivering o } else k
        ports := s.ports.set p (ok { s.port p with window := some tag } o) }) ∧
    (∀ o d raised mapped, j.phase = .held o d raised → (s.port p).window = some mapped →
      exec (.collect p reserved bus) s = .next (s.told p .windowBusy 4 tag (mapped.setWidth 32) 0 0)) ∧
    (∀ o, j.phase = .delivering o →
      exec (.collect p reserved bus) s = .next (s.withPort p (ok (s.port p) o)))

/-- R150: RELEASE by the state of the job it finds. -/
def Obligations.ReleaseAnswersByState : Prop :=
  ∀ (s : State) (p : Port) (reserved : BitVec 24) (bus : WriteParity), s.PassesPort p reserved 5 bus →
    let tag : Tag := (s.port p).param[0].extractLsb' 0 12
    (s.findJob p tag = none → exec (.release p reserved bus) s = .next (s.told p .noJob 5 tag 0 0 0)) ∧
    ∀ j, s.findJob p tag = some j →
      (j.outcome.isSome = true →
        exec (.release p reserved bus) s = .next (s.freed j (·.told .ok 5 tag (j.phase.code.setWidth 32) 0 0))) ∧
      (j.outcome = none →
        exec (.release p reserved bus) s = .next (s.told p .wrongState 5 tag (j.phase.code.setWidth 32) 0 0))

/-- R19 and R20: QUERY completes in every state of the job, changes nothing but the response words, and reports the record as
it stands, row by row of Table 10-9. A remainder is the number that a field of that width carries. -/
def Obligations.QueryChangesOnlyResponse : Prop :=
  ∀ (s : State) (p : Port) (reserved : BitVec 24) (bus : WriteParity), s.PassesPort p reserved 6 bus →
    let tag : Tag := (s.port p).param[0].extractLsb' 0 12
    (s.findJob p tag = none → exec (.query p reserved bus) s = .next (s.told p .noJob 6 tag 0 0 0)) ∧
    ∀ j, s.findJob p tag = some j →
      let c := (s.port p).checker
      let options := 2 ^ 4 * j.params.softOutput.toNat + 2 ^ 5 * j.params.reportQuality.toNat +
        2 ^ 6 * j.params.autoTrigger.toNat + 2 ^ 7 * j.params.permSource.isGenerated.toNat
      let engine (e : EngineId) : Nat := match e with
        | .zero => 0
        | .one => 1
      let decode (state clamp : Nat) (e : EngineId) (r1 r2 r3 : Word) := r1.toNat = state + options ∧
        r2.toNat = clamp % 2 ^ 16 + 2 ^ 16 * engine e ∧ r3.toNat = 0
      let result (state : Nat) (o : Outcome) (r1 r2 r3 : Word) :=
        r1.toNat = state + options +
          2 ^ 8 * (match o.stopReason with
            | .checksum => 0
            | .quality => 1
            | .maxReached => 2
            | .permInvalid => 3) +
          2 ^ 12 * (o.iterationsDone % 2 ^ 4) + 2 ^ 16 * o.checksumOk.isSome.toNat +
          2 ^ 17 * (o.checksumOk.getD false).toNat + 2 ^ 20 * o.quality.isSome.toNat +
          2 ^ 24 * (o.quality.getD 0 % 2 ^ 6) ∧
        r2.toNat = o.clampCount % 2 ^ 16 + 2 ^ 16 * engine o.engine ∧ r3.toNat = 0
      ∃ r1 r2 r3, exec (.query p reserved bus) s = .next (s.told p .ok 6 tag r1 r2 r3) ∧
        match j.phase with
        | .staging _ =>
          r1.toNat = 1 + options + 2 ^ 8 * (c.received.sys % 2 ^ 12) + 2 ^ 20 * (c.received.par1 % 2 ^ 12) ∧
          r2.toNat = c.clamp % 2 ^ 16 + 2 ^ 16 * (c.received.perm % 2 ^ 13) + 2 ^ 29 * c.parityFault.toNat +
            2 ^ 30 * c.permFault.toNat + 2 ^ 31 * c.overflow.toNat ∧
          r3.toNat = c.received.par2 % 2 ^ 12 + (match c.permFault, c.firstBad with
            | true, some ⟨word, .low⟩ => 2 ^ 16 * (word % 2 ^ 12)
            | true, some ⟨word, .high⟩ => 2 ^ 16 * (word % 2 ^ 12) + 2 ^ 28
            | _, _ => 0)
        | .queued clamp _ => decode 2 clamp .zero r1 r2 r3
        | .decoding clamp _ e => decode 3 clamp e r1 r2 r3
        | .aborting clamp _ e => decode 4 clamp e r1 r2 r3
        | .held o _ _ => result 5 o r1 r2 r3
        | .delivering o => result 6 o r1 r2 r3

/-- Tables 10-3, 10-5, 10-8, 10-9 (STAGING; QueryChangesOnlyResponse has every row) and 10-10: each word as a sum of its
fields at their places; and the codes of Tables 2-3, 8-5, 10-2, 10-10, 10-11 and 10-12. -/
def Obligations.WordLayouts : Prop :=
  (∀ v : Vector Word 6, let r := openRecord v
    r.tag.toNat = v[0].toNat % 4096 ∧ r.k = v[1].toNat % 2 ^ 14 ∧ r.minIter = v[1].toNat / 2 ^ 16 % 16 ∧
    r.maxIter = v[1].toNat / 2 ^ 20 % 16 ∧ r.stopRule = v[1].toNat / 2 ^ 24 % 4 ∧
    r.checksumKind = v[1].toNat / 2 ^ 26 % 4 ∧ r.requiredMatches = v[1].toNat / 2 ^ 28 % 8 ∧
    r.qualityThreshold = v[2].toNat % 64 ∧ r.reportQuality.toNat = v[2].toNat / 2 ^ 8 % 2 ∧
    r.softOutput.toNat = v[2].toNat / 2 ^ 9 % 2 ∧ r.generated.toNat = v[2].toNat / 2 ^ 10 % 2 ∧
    r.autoTrigger.toNat = v[2].toNat / 2 ^ 11 % 2 ∧ r.f1 = v[3].toNat % 2 ^ 13 ∧ r.f2 = v[3].toNat / 2 ^ 16 % 2 ^ 13) ∧
  (∀ (code : RespCode) (cmd : BitVec 8) (tag : Tag),
    (resp0 code cmd tag).toNat = code.value.toNat + 2 ^ 8 * cmd.toNat + 2 ^ 16 * tag.toNat) ∧
  (∀ o : Outcome, o.iterationsDone ≤ 15 → o.quality.getD 0 ≤ 40 →
    2 ^ 8 * o.fields.toNat = 2 ^ 8 * o.stopReason.code.toNat + 2 ^ 12 * o.iterationsDone +
      2 ^ 16 * o.checksumOk.isSome.toNat + 2 ^ 17 * (o.checksumOk.getD false).toNat +
      2 ^ 20 * o.quality.isSome.toNat + 2 ^ 24 * o.quality.getD 0) ∧
  (∀ n : Notice, (∀ r, n.result = some r → r.iterationsDone ≤ 15) →
    n.word.toNat = n.kind.code.toNat + 2 ^ 16 * n.tag.toNat +
      match n.result with
      | none => 0
      | some r => 2 ^ 4 * r.checksumOk.isSome.toNat + 2 ^ 5 * (r.checksumOk.getD false).toNat +
          2 ^ 6 * r.stopReason.code.toNat + 2 ^ 8 * r.iterationsDone) ∧
  (∀ pr : Params, pr.optionFlags.toNat = pr.softOutput.toNat + 2 * pr.reportQuality.toNat + 4 * pr.autoTrigger.toNat +
    8 * pr.permSource.isGenerated.toNat) ∧
  (∀ (j : Job) (c : Checker) (input : List Page), j.phase = .staging input → c.received.sys ≤ 2049 →
    c.received.par1 ≤ 2049 → c.received.par2 ≤ 2049 → c.received.perm ≤ 4096 → c.clamp ≤ 65535 →
    (queryWords j c).1.toNat = 1 + 2 ^ 4 * j.params.optionFlags.toNat + 2 ^ 8 * c.received.sys +
      2 ^ 20 * c.received.par1 ∧
    (queryWords j c).2.1.toNat = c.clamp + 2 ^ 16 * c.received.perm + 2 ^ 29 * c.parityFault.toNat +
      2 ^ 30 * c.permFault.toNat + 2 ^ 31 * c.overflow.toNat ∧
    (queryWords j c).2.2.toNat = c.received.par2 + 2 ^ 16 * c.firstBadField.toNat) ∧
  [RespCode.none, .ok, .pending, .accepted, .noJob, .dupTag, .quotaEntries, .quotaPages, .noEntry, .noSpace, .param,
    .stagingBusy, .wrongState, .windowBusy, .short, .over, .permBad, .parityFault, .cmdParity, .badCommand].map
    (·.value.toNat) = List.range 20 ∧
  (∀ ph : JobPhase, ph.code.toNat = match ph with
    | .staging .. => 1
    | .queued .. => 2
    | .decoding .. => 3
    | .aborting .. => 4
    | .held .. => 5
    | .delivering .. => 6) ∧
  [StopReason.checksum, .quality, .maxReached, .permInvalid].map (·.code.toNat) = [0, 1, 2, 3] ∧
  [NoticeKind.done, .fault, .aborted, .expired].map (·.code.toNat) = [1, 2, 3, 4] ∧
  [EngineId.zero, .one].map (·.code.toNat) = [0, 1] ∧ [Half.low, .high].map (·.code.toNat) = [0, 1] ∧
  [Port.a, .b, .c, .d].map (·.letter.toNat) = [0, 1, 2, 3] ∧
  [Stream.sys, .par1, .par2, .perm].map streamNumber = [0, 1, 2, 3] ∧
  [StatusBit.noticeOverrun, .strayWrite, .strayRead, .addrParity, .dataParity].map (·.position) = [1, 2, 3, 4, 5]

/-! ### Port reset -/

/-- R126: PORT_RESET, with its counts. -/
def Obligations.PortResetCommandResets : Prop :=
  ∀ (s : State) (p : Port) (reserved : BitVec 24) (bus : WriteParity), s.PassesPort p reserved 7 bus →
    s.IdsDistinct →
    ∃ t gone, exec (.portReset p reserved bus) s = .next t ∧ s.JobsReset t p gone ∧
      t.port p = (s.port p).cleared.told .ok 7 0 (BitVec.ofNat 32 gone.length)
        (BitVec.ofNat 32 (s.jobs.filter fun j => j.owner == p && j.onEngine).length) 0

/-- Sections 6.4 and 6.5: assertion of a port's reset line, and its release. `held` replaces the acknowledgement of a CMD or
stream write by the fault response (log 10). That an assertion has this effect in every state, a line already held and a
device reset included, is the model's choice (log 14). -/
def Obligations.ResetLineHoldsPort : Prop :=
  (∀ (s : State) (p : Port) (held : Bool), s.IdsDistinct →
    ∃ t gone, exec (.portResetLineAssertion p held) s = .next t ∧ s.JobsReset t p gone ∧
      t.port p = { (s.port p).cleared with
        resp := { r0 := 0#32, r1 := 0#32, r2 := 0#32, r3 := 0#32 }
        resetHeld := true
        bus := match held, (s.port p).bus with
          | true, .wrote true _ => .wrote true true
          | _, ans => ans }) ∧
  (∀ (s : State) (p : Port),
    exec (.portResetLineRelease p) s =
      .next (s.withPort p { s.port p with resetHeld := false }))

/-! ### Stream words -/

/-- R52, R53 and R54: a stream word that lines 1 to 3 of Table 3-6 discard. -/
def Obligations.StreamWordDiscarded : Prop :=
  ∀ (s : State) (p : Port) (st : Stream) (offset : BitVec 10) (w : Word) (bus : WriteParity), s.Performs p →
    addrParityGood (apertureAddr st offset) true bus.addr = true →
    let becomes (u : PortUnit) := exec (.streamWord p st offset w bus) s =
      .next (s.withPort p { u with bus := .wrote true false })
    let u := s.port p
    (u.slot = none → dataParityGood w bus.data = true → becomes (u.setBit .strayWrite)) ∧
    (u.slot = none → dataParityGood w bus.data = false → becomes ((u.setBit .strayWrite).setBit .dataParity)) ∧
    (u.slot.isSome → dataParityGood w bus.data = false →
      becomes ({ u with checker := { u.checker with parityFault := true } }.setBit .dataParity)) ∧
    (u.slot.isSome → dataParityGood w bus.data = true → u.checker.received.get st = u.checker.expected.get st →
      becomes { u with checker := { u.checker with overflow := true } })

/-- R55 and R62: a word that line 4 accepts is stored in the four bytes at its offset and nowhere else, counted and
checked, and the auto-trigger fires exactly when every stream is complete and every flag clear. -/
def Obligations.StreamWordAccepted : Prop :=
  ∀ (s : State) (p : Port) (st : Stream) (offset : BitVec 10) (w : Word) (bus : WriteParity) (tag : Tag) (j : Job)
    (input : List Page), s.GoodWrite p (apertureAddr st offset) w bus → s.mem.wf → s.IdsDistinct →
    (s.port p).slot = some tag → s.findJob p tag = some j → j.phase = .staging input →
    let c := (s.port p).checker
    let c' := c.accept st w
    let o := 4 * c.expected.sys * streamNumber st + 4 * c.received.get st
    let fires := c'.autoTrigger = true ∧ c'.parityFault = false ∧ c'.overflow = false ∧ c'.permFault = false ∧
      ∀ x, c'.received.get x = c'.expected.get x
    c.received.get st ≠ c.expected.get st →
    ∃ t, exec (.streamWord p st offset w bus) s = .next t ∧
      (∀ pg x, x < 1024 → t.readPage pg x =
        if input[o / 1024]? = some pg ∧ o % 1024 ≤ x ∧ x < o % 1024 + 4 then byteOf w (x - o % 1024)
        else s.readPage pg x) ∧
      (¬ fires → t = { s with
        mem := t.mem, clean := t.clean
        ports := s.ports.set p { s.port p with checker := c', bus := .wrote true false } }) ∧
      (fires → t = { s with
        mem := t.mem, clean := t.clean
        jobs := s.jobs.map fun k =>
          if k.owner = p ∧ k.tag = tag then { j with phase := .queued c'.clamp input } else k
        queues := s.queues.set p (s.queue p ++ [tag])
        ports := s.ports.set p { s.port p with
          slot := none, checker := Checker.cleared, bus := .wrote true false } })

/-- R56 and R57: what an accepted SYS, PAR1 or PAR2 word does to the checker. -/
def Obligations.SoftValuesSaturated : Prop :=
  (∀ (c : Checker) (st : Stream) (w : Word), st ≠ .perm → c.clamp ≤ 65535 →
    let j := c.received.get st
    let bad := (List.range 4).countP fun b =>
      decide (4 * j + b < c.k + 4 ∧ 0x20 ≤ (byteOf w b).toNat ∧ (byteOf w b).toNat ≤ 0xE0)
    c.accept st w = { c with received := c.received.set st (j + 1), clamp := min 65535 (c.clamp + bad) }) ∧
  (∀ v : Byte, softValue v =
    if 0x20 ≤ v.toNat ∧ v.toNat ≤ 0x7F then 31 else if 0x80 ≤ v.toNat ∧ v.toNat ≤ 0xE0 then -31 else v.toInt)

/-- R58, R59 and R60: what an accepted PERM word does to the checker, half by half, the low half first. -/
def Obligations.PermutationIndexesTested : Prop :=
  (∀ (c : Checker) (w : Word), let j := c.received.perm
    c.accept .perm w =
      ({ c with received := { c.received with perm := j + 1 } }.checkHalf j w .low).checkHalf j w .high) ∧
  (∀ (c : Checker) (j : Nat) (w : Word) (h : Half),
    let x := match h with
      | .low => w.toNat % 65536
      | .high => w.toNat / 65536
    let position := match h with
      | .low => 2 * j
      | .high => 2 * j + 1
    (c.k ≤ position → c.checkHalf j w h = c) ∧
    (position < c.k → c.k ≤ x ∨ c.seen.getLsbD x = true → c.checkHalf j w h = { c with
      permFault := true, firstBad := if c.permFault then c.firstBad else some ⟨j, h⟩ }) ∧
    (position < c.k → c.k ≤ 8192 → x < c.k → c.seen.getLsbD x = false →
      ∃ seen, c.checkHalf j w h = { c with seen := seen } ∧
        ∀ y < 8192, seen.getLsbD y = (c.seen.getLsbD y || decide (y = x))))

/-! ### Dispatch -/

/-- R79 and R80: what a grant chooses and does. The second clause, that GRANT changes nothing while its conditions do not
hold, is the model's choice (log 5). -/
def Obligations.GrantBindsFirstJob : Prop :=
  (∀ (s : State) (e : EngineId) (before after : List Port) (p : Port) (tag : Tag) (rest : List Tag) (j : Job)
    (clamp : Nat) (input : List Page), s.deviceReset = false → s.IdsDistinct →
    (s.engine e).stage = .idle → (e = .one → (s.engine .zero).stage ≠ .idle) →
    (match s.pointer with
      | .a => [Port.b, .c, .d, .a]
      | .b => [.c, .d, .a, .b]
      | .c => [.d, .a, .b, .c]
      | .d => [.a, .b, .c, .d]) = before ++ p :: after →
    (∀ q ∈ before, s.queue q = []) → s.queue p = tag :: rest → s.findJob p tag = some j →
    j.phase = .queued clamp input →
    exec .grant s = .next { s with
      queues := s.queues.set p rest
      pointer := p
      jobs := s.jobs.map fun k =>
        if k.owner = p ∧ k.tag = tag then { j with phase := .decoding clamp input e } else k
      engines := s.engines.set e
        { stage := .prime, bound := some ⟨p, tag⟩, params := some j.params, iteration := 0, streak := 0
          lastChecksum := none, lastQuality := none, pending := none, abortSeen := false
          permMemory := (s.engine e).permMemory, work := { extrinsic := [], posteriori := [] } } }) ∧
  (∀ s : State, s.deviceReset = true ∨ (∀ e, (s.engine e).stage ≠ .idle) ∨ (∀ p, s.queue p = []) →
    exec .grant s = .next s)

/-- Section 4.3: a grant goes to the port that the pointer names only when no other port has a job waiting. -/
def Obligations.GrantConsidersPointerLast : Prop :=
  ∀ s t : State, exec .grant s = .next t → t.engines ≠ s.engines → t.pointer = s.pointer →
    ∀ q, q ≠ s.pointer → s.queue q = []

/-! ### Engines -/

/-- R94, R95 and R96 at the end of PRIME of a job whose abort is not asked for. That the entry of a repeat and the entries
after it keep their values is the model's inference (log 15). -/
def Obligations.EndOfPrimeLoadsPermutation : Prop :=
  ∀ (s : State) (e : EngineId) (j : Job) (pr : Params), s.Working e .prime j pr → j.abortRequested = false →
    (s.engine e).iteration = 0 → 1 ≤ pr.k → pr.k ≤ 8192 →
    let stored (i : Nat) : Nat := (s.readArea j.inputPages (12 * softWords pr.k + 2 * i)).toNat +
      256 * (s.readArea j.inputPages (12 * softWords pr.k + 2 * i + 1)).toNat
    let loads (g : Engine) (n : Nat) (index : Nat → Nat) := ∃ memory,
      (∀ i, memory.getD i 0 = if i < n then index i else (s.engine e).permMemory.getD i 0) ∧
      exec (.endOfPrime e) s = .next { s with engines := s.engines.set e { g with permMemory := memory } }
    let passes := { s.engine e with stage := .pass1, iteration := 1, abortSeen := false }
    let stops := { s.engine e with
      stage := .store, abortSeen := false
      pending := some { stopReason := .permInvalid, iterationsDone := 0, checksumOk := none, quality := none } }
    (pr.permSource = .client → loads passes pr.k stored) ∧
    (∀ f1 f2, pr.permSource = .generated f1 f2 →
      let index (i : Nat) := (f1 * i + f2 * i ^ 2) % pr.k
      ((∀ a b, a < b → b < pr.k → index a ≠ index b) → loads passes pr.k index) ∧
      (∀ repeated, repeated < pr.k → (∃ a < repeated, index a = index repeated) →
        (∀ a b, a < b → b < repeated → index a ≠ index b) → loads stops repeated index))

/-- R98 and R99: what the passes read and write, at their ends, for a job whose abort is not asked for. The results
themselves are free (log 2). -/
def Obligations.PassesReadAndWrite : Prop :=
  (∀ (s : State) (e : EngineId) (j : Job) (pr : Params), s.Working e .pass1 j pr → j.abortRequested = false →
    let g := s.engine e
    let input : Pass1Input :=
      { k := pr.k
        sys := (List.range (pr.k + 4)).map fun i => softValue (s.readArea j.inputPages i)
        par1 := (List.range (pr.k + 4)).map fun i => softValue (s.readArea j.inputPages (4 * softWords pr.k + i))
        extrinsic := (List.range pr.k).map fun i => g.work.extrinsic.getD i 0 }
    exec (.endOfPass1 e) s = .next { s with engines := s.engines.set e { g with
      stage := .pass2, abortSeen := false
      work := { g.work with extrinsic := (List.range pr.k).map (Config.pass1Extrinsic input) } } }) ∧
  (∀ (s : State) (e : EngineId) (j : Job) (pr : Params), s.Working e .pass2 j pr → j.abortRequested = false →
    let g := s.engine e
    let perm := (List.range pr.k).map fun i => g.permMemory.getD i 0
    let input : Pass2Input :=
      { perm := perm
        sys := perm.map fun i => softValue (s.readArea j.inputPages i)
        extrinsic := perm.map fun i => g.work.extrinsic.getD i 0
        par2 := (List.range (pr.k + 4)).map fun i => softValue (s.readArea j.inputPages (8 * softWords pr.k + i))
        sysTail := (List.range 4).map fun i => softValue (s.readArea j.inputPages (pr.k + i)) }
    exec (.endOfPass2 e) s = .next { s with engines := s.engines.set e { g with
      stage := .evaluate, abortSeen := false
      work := { extrinsic := (List.range pr.k).map (Config.pass2Extrinsic input)
                posteriori := (List.range pr.k).map (Config.posteriori input) } } })

/-- R101, R102 and R103: the checksum result and streak, the quality, and the stop decision in its order. -/
def Obligations.EvaluateDecidesStop : Prop :=
  ∀ (s : State) (e : EngineId) (j : Job) (pr : Params), s.Working e .evaluate j pr →
    let g := s.engine e
    let n := g.iteration
    let bits := (List.range pr.k).map fun i => decide (g.work.posteriori.getD i 0 < 0)
    let checksum : Option Bool := match pr.checksumKind with
      | .none => none
      | .c16 => some (checksumOf 0x1021#16 bits == 0)
      | .c24 => some (checksumOf 0x864CFB#24 bits == 0)
    let streak := match checksum with
      | some true => g.streak + 1
      | some false => 0
      | none => g.streak
    ∃ quality : Option Nat,
      (quality.isSome = true ↔ pr.stopRule = .quality ∨ pr.stopRule = .either ∨ pr.reportQuality = true) ∧
      (∀ q, quality = some q → q ≤ 40) ∧
      let checksumStop := max pr.minIter 1 ≤ n ∧ (pr.stopRule = .checksum ∨ pr.stopRule = .either) ∧
        pr.requiredMatches ≤ streak
      let qualityStop := max pr.minIter 1 ≤ n ∧ (pr.stopRule = .quality ∨ pr.stopRule = .either) ∧
        ∃ q, quality = some q ∧ pr.qualityThreshold ≤ q
      let becomes (h : Engine) := exec (.endOfEvaluate e) s = .next { s with engines := s.engines.set e h }
      let g' := { g with streak := streak, lastChecksum := checksum, lastQuality := quality }
      let stops (reason : StopReason) := becomes { g' with
        stage := .store
        pending := some { stopReason := reason, iterationsDone := n, checksumOk := checksum, quality := quality } }
      (checksumStop → stops .checksum) ∧ (¬ checksumStop → qualityStop → stops .quality) ∧
      (¬ checksumStop → ¬ qualityStop → n = pr.maxIter → stops .maxReached) ∧
      (¬ checksumStop → ¬ qualityStop → n ≠ pr.maxIter → becomes { g' with stage := .pass1, iteration := n + 1 })

/-- R105: one step of the register, and that the two forms of the checksum agree. -/
def Obligations.ChecksumFormsAgree : Prop :=
  (∀ (w : Nat) (generator : BitVec w) (bits : List Bool) (b : Bool),
    checksumOf generator [] = 0 ∧
    checksumOf generator (bits ++ [b]) =
      if (checksumOf generator bits).msb ^^ b then (checksumOf generator bits <<< 1) ^^^ generator
      else checksumOf generator bits <<< 1) ∧
  (∀ payload check : List Bool, check.length = 16 →
    (checksumResult .c16 (payload ++ check) = some true ↔
      check = (List.range 16).map fun i => (checksumOf 0x1021#16 payload).getLsbD (15 - i))) ∧
  (∀ payload check : List Bool, check.length = 24 →
    (checksumResult .c24 (payload ++ check) = some true ↔
      check = (List.range 24).map fun i => (checksumOf 0x864CFB#24 payload).getLsbD (23 - i)))

/-- Sections 5.7, 5.8 and 7.1: the end of STORE of a job whose abort is not asked for writes the output and completes the
job. The premises on the output list follow from PagesConserved, ListsSized and ParamsCopied, which StepKeepsPagesConserved,
StepKeepsWithinCeilings and StepKeepsEnginesSound state that every step keeps. -/
def Obligations.EndOfStoreCompletesJob : Prop :=
  ∀ (s : State) (e : EngineId) (j : Job) (pr : Params) (po : PendingOutcome) (clamp : Nat) (input : List Page),
    s.Working e .store j pr → (s.engine e).pending = some po → j.phase = .decoding clamp input e →
    j.abortRequested = false → s.IdsDistinct → s.mem.wf → j.output.Nodup →
    let out := if po.stopReason = .permInvalid then [] else outputBytes pr (s.engine e).work
    let limit := (s.port j.owner).holdLimit
    let deadline : Option Tick := if limit = 0 then none else some (BitVec.ofNat 32 (s.tick.toNat + limit.toNat + 1))
    out.length ≤ 1024 * j.output.length →
    ∃ t, exec (.endOfStore e) s = .next t ∧
      (∀ o, t.readArea j.output o = if o < out.length then out.getD o 0 else s.readArea j.output o) ∧
      (∀ pg x, x < 1024 → pg ∉ j.output → t.readPage pg x = s.readPage pg x) ∧
      t = { s with
        mem := t.mem, clean := t.clean
        free := s.free ++ input
        jobs := s.jobs.map fun k => if k.owner = j.owner ∧ k.tag = j.tag then { j with
          phase := .held { stopReason := po.stopReason, iterationsDone := po.iterationsDone
                           checksumOk := po.checksumOk, quality := po.quality, clampCount := clamp, engine := e }
                         deadline false } else k
        engines := s.engines.set e (s.engine e).idled
        ports := s.ports.set j.owner ((s.port j.owner).pushNotice
          { kind := if po.stopReason = .permInvalid then .fault else .done
            tag := j.tag
            result := some { stopReason := po.stopReason, iterationsDone := po.iterationsDone
                             checksumOk := po.checksumOk } }) }

/-- R107 and R108: the bytes of the output, region by region. The magnitude of a soft value is free (log 4). -/
def Obligations.OutputRegions : Prop :=
  ∀ (pr : Params) (w : WorkingValues),
    let out := outputBytes pr w
    let H := 4 * ((pr.k + 31) / 32)
    let decision (i : Nat) : Bool := decide (w.posteriori.getD i 0 < 0)
    out.length = H + (if pr.softOutput then 4 * ((pr.k + 3) / 4) else 0) ∧
    (∀ i, i < 8 * H → (out.getD (i / 8) 0).getLsbD (i % 8) = (decide (i < pr.k) && decision i)) ∧
    (pr.softOutput = true →
      (∀ i, i < pr.k → -127 ≤ (out.getD (H + i) 0).toInt ∧ (out.getD (H + i) 0).toInt ≤ 127 ∧
        ((out.getD (H + i) 0).toInt < 0 ↔ decision i = true)) ∧
      (∀ i, pr.k ≤ i → i < 4 * ((pr.k + 3) / 4) → out.getD (H + i) 0 = 0#8))

/-- Section 5.2, R14 and R93: a boundary of an engine whose job is ABORTING makes the abort report, at the end of each of
the four stages that end in one. -/
def Obligations.BoundaryReportsAbort : Prop :=
  ∀ (s : State) (e : EngineId) (j : Job) (pr : Params) (clamp : Nat) (input : List Page),
    ∀ c ∈ [(Instr.endOfPrime e, Stage.prime), (.endOfPass1 e, .pass1), (.endOfPass2 e, .pass2), (.endOfStore e, .store)],
    s.Working e c.2 j pr → j.phase = .aborting clamp input e → j.abortRequested = true →
    (c.2 = .store → (s.engine e).pending.isSome = true) →
    ∃ t, exec c.1 s = .next t ∧
      (s.mem.wf → ∀ pg x, x < 1024 → (c.2 = .store → pg ∉ j.output) → t.readPage pg x = s.readPage pg x) ∧
      t = { s with
        mem := t.mem, clean := t.clean
        free := s.free ++ (input ++ j.output)
        jobs := s.jobs.filter fun k => !(k.owner == j.owner && k.tag == j.tag)
        engines := s.engines.set e { (s.engine e).idled with
          permMemory := (t.engine e).permMemory, work := (t.engine e).work }
        ports := s.ports.set j.owner
          ((s.port j.owner).pushNotice { kind := .aborted, tag := j.tag, result := none }) }

/-- R175: the push of a notice, by the first case that applies. -/
def Obligations.NoticePushCases : Prop :=
  ∀ (s : State) (p : Port) (n : Notice), let u := s.port p
    (u.resetHeld = true → s.pushNotice p n = s) ∧
    (u.resetHeld = false → 16 ≤ u.notices.length →
      ∃ raw, s.pushNotice p n = (s.withPort p { u with raw := raw }) ∧
        ∀ i < 5, raw.getLsbD i = (u.raw.getLsbD i || decide (i = 0))) ∧
    (u.resetHeld = false → u.notices.length < 16 →
      s.pushNotice p n = (s.withPort p { u with notices := u.notices ++ [n] }) ∧
      ((s.pushNotice p n).port p).statusBits.getLsbD 0 = true)

/-! ### The hold timer -/

/-- Sections 7.2 and 7.3: a tick raises the count by one, wrapping, and raises the expiries of the deadlines it reaches
(log 12); while the device reset is asserted no tick is taken. -/
def Obligations.TickCountsAndRaises : Prop :=
  (∀ s : State, s.deviceReset = false →
    let now : Tick := BitVec.ofNat 32 ((s.tick.toNat + 1) % 2 ^ 32)
    exec .tick s = .next { s with
      tick := now
      jobs := s.jobs.map fun j =>
        match j.phase with
        | .held o (some d) raised => { j with phase := .held o (some d) (raised || decide (d = now)) }
        | _ => j }) ∧
  (∀ s : State, s.deviceReset = true → exec .tick s = .next s)

/-- Section 7.3: the expiry of a HELD job whose deadline is armed and reached frees it and pushes EXPIRED; no expiry is
taken of any other job (log 5, 12). -/
def Obligations.ExpiryFreesHeldJob : Prop :=
  (∀ (s : State) (p : Port) (tag : Tag) (j : Job) (o : Outcome) (d : Tick) (raised : Bool), s.deviceReset = false →
    s.findJob p tag = some j → j.phase = .held o (some d) raised → d = s.tick ∨ raised = true →
    exec (.expiry p tag) s =
      .next (s.freed j (·.pushNotice { kind := .expired, tag := tag, result := none }))) ∧
  (∀ (s : State) (p : Port) (tag : Tag), s.deviceReset = true ∨ s.findJob p tag = none ∨
      (∃ j, s.findJob p tag = some j ∧ ∀ o d raised, j.phase = .held o (some d) raised → d ≠ s.tick ∧ raised = false) →
    exec (.expiry p tag) s = .next s)

/-! ### The device -/

/-- R170: the values of a device reset, what is taken while it is asserted, and its release. Power-on takes the same values
(R171). The acknowledgement that `held` makes the fault response (R157, R165), and none after power-on, are the model's
choice (log 10), and so is the same effect in a device reset already asserted (log 13). The reset lines act then as
ResetLineHoldsPort states. -/
def Obligations.DeviceResetValues : Prop :=
  (∀ (s : State) (c : Instr) (bus : Port → BusAnswer),
    (∃ held, c = .deviceReset held ∧ ∀ p, bus p = match held.get p, (s.port p).bus with
      | true, .wrote true _ => .wrote true true
      | _, ans => ans) ∨ (c = .powerOn ∧ ∀ p, bus p = .none) →
    ∃ t, exec c s = .next t ∧ t.deviceReset = true ∧ t.jobs = [] ∧ t.free = List.finRange 256 ∧
      (∀ pg, t.isClean pg = true) ∧ (∀ pg x, t.readPage pg x = 0#8) ∧ (∀ p, t.queue p = []) ∧ t.pointer = .d ∧
      t.tick = 0 ∧ t.pending = s.pending ∧
      (∀ e, t.engine e =
        { stage := .idle, bound := none, params := none, iteration := 0, streak := 0, lastChecksum := none
          lastQuality := none, pending := none, abortSeen := false, permMemory := []
          work := { extrinsic := [], posteriori := [] } }) ∧
      (∀ p, t.port p =
        { slot := none, checker := Checker.cleared, window := none, notices := [], raw := 0, enables := 0
          holdLimit := 250, param := Vector.replicate 6 0, taint := false
          resp := { r0 := 0, r1 := 0, r2 := 0, r3 := 0 }, resetHeld := (s.port p).resetHeld, bus := bus p }) ∧
      (∀ p, t.irq p = false)) ∧
  (∀ s : State, s.deviceReset = true →
    (∀ (c : Instr) (p : Port) (a : WordAddr) (w : Word) (bus : WriteParity), asWrite c = some (p, a, w, bus) →
      exec c s = .next (s.withPort p { s.port p with bus := .wrote (writeTarget a).crosses true })) ∧
    (∀ (c : Instr) (p : Port) (a : WordAddr) (par : Bool), asRead c = some (p, a, par) →
      exec c s = .next (s.withPort p { s.port p with bus := .read true 0#32 0xF#4 })) ∧
    (∀ e, ∀ c ∈ [Instr.grant, .tick, .endOfPrime e, .endOfPass1 e, .endOfPass2 e, .endOfEvaluate e, .endOfStore e],
      exec c s = .next s) ∧
    (∀ p tag, exec (.expiry p tag) s = .next s) ∧
    (∀ prof1 prof0, exec (.deviceResetRelease prof1 prof0) s =
      .next { s with deviceReset := false, profile := profileOf prof1 prof0 }))

/-- R172, Table 8-6: the straps select the profile at the release, nothing else changes it, and what each profile fixes. That
DEVICE_RESET and POWER_ON keep the sampled profile (log 13), and that a release without an asserted reset changes nothing
(log 5), are the model's choices. -/
def Obligations.StrapsSelectProfile : Prop :=
  (∀ (s : State) (prof1 prof0 : Bool), s.deviceReset = true →
    ∃ t, exec (.deviceResetRelease prof1 prof0) s = .next t ∧
      t.profile.number.toNat = 2 * prof1.toNat + prof0.toNat) ∧
  (∀ (c : Instr) (s t : State), exec c s = .next t →
    t.profile = s.profile ∨ ∃ prof1 prof0, c = .deviceResetRelease prof1 prof0 ∧ s.deviceReset = true) ∧
  (∀ (pf : Profile) (p : Port),
    (pf.enables p = false ↔ pf.number = 2 ∧ (p = .c ∨ p = .d)) ∧
    pf.entryCeiling p = (match pf.number.toNat, p with
      | 0, _ => 8
      | 1, _ => 16
      | 2, .a => 16
      | 2, .b => 16
      | 2, _ => 0
      | _, .a => 16
      | _, _ => 8) ∧
    pf.pageCeiling p = (match pf.number.toNat, p with
      | 0, _ => 64
      | 1, _ => 128
      | 2, .a => 128
      | 2, .b => 128
      | 2, _ => 0
      | _, .a => 128
      | _, _ => 64))

/-- The state after reset: what the spec gives, and the choices of log 1 and log 10 (low straps, lines not held, no
acknowledgement yet); every law below holds of it. -/
def Obligations.ResetStateIsSound : Prop :=
  State.reset.deviceReset = false ∧ State.reset.profile = .balanced ∧ State.reset.jobs = [] ∧
  State.reset.free.length = 256 ∧ State.reset.tick = 0 ∧ State.reset.pointer = .d ∧ State.reset.mem = [] ∧
  State.reset.pending = [] ∧ (∀ p, (State.reset.port p).holdLimit = 250 ∧ State.reset.irq p = false) ∧
  State.reset.PagesConserved ∧ State.reset.WithinCeilings ∧ State.reset.QueuesTied ∧ State.reset.SlotsTied ∧
  State.reset.WindowsTied ∧ State.reset.BindingsTied ∧ State.reset.EnginesSound ∧ State.reset.HeldPortsQuiet ∧
  State.reset.ListsSized ∧ State.reset.ParamsCopied ∧ State.reset.NoticesBounded ∧ State.reset.CountsBounded ∧
  State.reset.ClampBounded ∧ State.reset.mem.wf

/-! ### Laws that every step keeps -/

/-- Section 2.1: every page is in exactly one place. -/
def Obligations.StepKeepsPagesConserved : Prop :=
  ∀ s t : State, s.PagesConserved → step s = .next t → t.PagesConserved

/-- Section 1.4: the ceilings. R27 and R31: the lengths of the page lists. -/
def Obligations.StepKeepsWithinCeilings : Prop :=
  (∀ s t : State, s.WithinCeilings → step s = .next t → t.WithinCeilings) ∧
  (∀ s t : State, s.ListsSized → step s = .next t → t.ListsSized)

/-- Section 4.2: the ready queues hold exactly the QUEUED jobs. -/
def Obligations.StepKeepsQueuesTied : Prop :=
  ∀ s t : State, s.QueuesTied → step s = .next t → t.QueuesTied

/-- Section 3.2: the staging slots name exactly the STAGING jobs. -/
def Obligations.StepKeepsSlotsTied : Prop :=
  ∀ s t : State, s.SlotsTied → step s = .next t → t.SlotsTied

/-- Section 7.5: the windows map exactly the DELIVERING jobs. -/
def Obligations.StepKeepsWindowsTied : Prop :=
  ∀ s t : State, s.WindowsTied → step s = .next t → t.WindowsTied

/-- Section 4.4: the engines are bound to exactly the DECODING and ABORTING jobs. -/
def Obligations.StepKeepsBindingsTied : Prop :=
  ∀ s t : State, s.BindingsTied → step s = .next t → t.BindingsTied

/-- Chapter 5: an engine's items in each stage, and the ranges of every live job's parameters. R90: a bound engine's params
are its job's. -/
def Obligations.StepKeepsEnginesSound : Prop :=
  (∀ s t : State, s.EnginesSound → step s = .next t → t.EnginesSound) ∧
  (∀ s t : State, s.ParamsCopied → step s = .next t → t.ParamsCopied)

/-- Sections 6.2 and 6.5: abort_requested marks the ABORTING jobs, and a held port is quiet. -/
def Obligations.StepKeepsHeldPortsQuiet : Prop :=
  (∀ s t : State, s.AbortFlags → step s = .next t → t.AbortFlags) ∧
  (∀ s t : State, s.HeldPortsQuiet → step s = .next t → t.HeldPortsQuiet)

/-- R175, R55, R56 and the canonical form of the memory: the bounds that each keeps by itself. -/
def Obligations.StepKeepsUnitBounds : Prop :=
  (∀ s t : State, s.NoticesBounded → step s = .next t → t.NoticesBounded) ∧
  (∀ s t : State, s.CountsBounded → step s = .next t → t.CountsBounded) ∧
  (∀ s t : State, s.ClampBounded → step s = .next t → t.ClampBounded) ∧
  (∀ s t : State, s.mem.wf → step s = .next t → t.mem.wf)
end

