-- ==== Sys2Proof/Laws/Address.lean ====
section
/-! SUPPORT. The address of each row reaches the word that the row names (Table 10-1). -/

namespace Sys2Proof.Machine

theorem byteOffset_wordAddrOf {o : Nat} (h : o < 65536) (h4 : o % 4 = 0) : byteOffset (wordAddrOf o) = o := by
  simp only [byteOffset, wordAddrOf, BitVec.toNat_ofNat]
  omega

theorem byteOffset_apertureAddr (st : Stream) (offset : BitVec 10) :
    byteOffset (apertureAddr st offset) = apertureBase st + 4 * offset.toNat := by
  have := offset.isLt
  cases st <;> exact byteOffset_wordAddrOf (by simp only [apertureBase]; omega) (by simp only [apertureBase]; omega)

theorem byteOffset_windowAddr (offset : BitVec 12) : byteOffset (windowAddr offset) = 0x8000 + 4 * offset.toNat := by
  have := offset.isLt
  exact byteOffset_wordAddrOf (by omega) (by omega)

@[simp] theorem writeTarget_cmdAddr : writeTarget cmdAddr = .cmd := by decide
@[simp] theorem writeTarget_settingsAddr : writeTarget settingsAddr = .settings := by decide
@[simp] theorem writeTarget_statusSetAddr : writeTarget statusSetAddr = .statusSet := by decide
@[simp] theorem writeTarget_statusClearAddr : writeTarget statusClearAddr = .statusClear := by decide
@[simp] theorem writeTarget_enableSetAddr : writeTarget enableSetAddr = .enableSet := by decide
@[simp] theorem writeTarget_enableClearAddr : writeTarget enableClearAddr = .enableClear := by decide
@[simp] theorem readTarget_noticeAddr : readTarget noticeAddr = .notice := by decide

@[simp] theorem writeTarget_paramAddr (i : Fin 6) : writeTarget (paramAddr i) = .param i := by
  revert i; decide

@[simp] theorem writeTarget_apertureAddr (st : Stream) (offset : BitVec 10) :
    writeTarget (apertureAddr st offset) = .stream st := by
  have := offset.isLt
  have hb := byteOffset_apertureAddr st offset
  simp only [writeTarget, hb]
  cases st <;> simp only [apertureBase] <;> grind

@[simp] theorem readTarget_windowAddr (offset : BitVec 12) : readTarget (windowAddr offset) = .window (4 * offset.toNat) := by
  have := offset.isLt
  have hb := byteOffset_windowAddr offset
  simp only [readTarget, hb]
  grind

end Sys2Proof.Machine
end

