-- ==== Sys2Proof/Laws/State.lean ====
section
/-! SUPPORT. One lemma for each field under each update of the state, true by rfl, so that no proof unfolds a record
update; the reading of a port unit, an engine and a queue after an update; and the derived updates as the basic ones. -/

namespace Sys2Proof

@[simp] theorem PerPort.get_set_self {α : Type} (x : PerPort α) (p : Port) (v : α) : (x.set p v).get p = v := by
  cases p <;> rfl

theorem PerPort.get_set_ne {α : Type} (x : PerPort α) {p q : Port} (v : α) (h : q ≠ p) :
    (x.set p v).get q = x.get q := by
  cases p <;> cases q <;> first | rfl | exact absurd rfl h

theorem PerPort.ext_get {α : Type} {x y : PerPort α} (h : ∀ p, x.get p = y.get p) : x = y := by
  cases x; cases y; simp only [mk.injEq]
  exact ⟨h .a, h .b, h .c, h .d⟩

@[simp] theorem PerEngine.get_set_self {α : Type} (x : PerEngine α) (p : EngineId) (v : α) : (x.set p v).get p = v := by
  cases p <;> rfl

theorem PerEngine.get_set_ne {α : Type} (x : PerEngine α) {p q : EngineId} (v : α) (h : q ≠ p) :
    (x.set p v).get q = x.get q := by
  cases p <;> cases q <;> first | rfl | exact absurd rfl h

theorem PerEngine.ext_get {α : Type} {x y : PerEngine α} (h : ∀ p, x.get p = y.get p) : x = y := by
  cases x; cases y; simp only [mk.injEq]
  exact ⟨h .zero, h .one⟩

@[simp] theorem PerStream.get_set_self {α : Type} (x : PerStream α) (p : Stream) (v : α) : (x.set p v).get p = v := by
  cases p <;> rfl

theorem PerStream.get_set_ne {α : Type} (x : PerStream α) {p q : Stream} (v : α) (h : q ≠ p) :
    (x.set p v).get q = x.get q := by
  cases p <;> cases q <;> first | rfl | exact absurd rfl h

theorem PerStream.ext_get {α : Type} {x y : PerStream α} (h : ∀ p, x.get p = y.get p) : x = y := by
  cases x; cases y; simp only [mk.injEq]
  exact ⟨h .sys, h .par1, h .par2, h .perm⟩

end Sys2Proof

namespace Sys2Proof.Machine.State

/-! ### A port unit -/

section modPort
variable (s : State) (p : Port) (f : PortUnit → PortUnit)

@[simp] theorem modPort_deviceReset : (s.modPort p f).deviceReset = s.deviceReset := rfl
@[simp] theorem modPort_profile : (s.modPort p f).profile = s.profile := rfl
@[simp] theorem modPort_jobs : (s.modPort p f).jobs = s.jobs := rfl
@[simp] theorem modPort_free : (s.modPort p f).free = s.free := rfl
@[simp] theorem modPort_clean : (s.modPort p f).clean = s.clean := rfl
@[simp] theorem modPort_mem : (s.modPort p f).mem = s.mem := rfl
@[simp] theorem modPort_queues : (s.modPort p f).queues = s.queues := rfl
@[simp] theorem modPort_pointer : (s.modPort p f).pointer = s.pointer := rfl
@[simp] theorem modPort_engines : (s.modPort p f).engines = s.engines := rfl
@[simp] theorem modPort_tick : (s.modPort p f).tick = s.tick := rfl
@[simp] theorem modPort_ports : (s.modPort p f).ports = s.ports.set p (f (s.port p)) := rfl
@[simp] theorem modPort_pending : (s.modPort p f).pending = s.pending := rfl

end modPort

/-! ### An engine -/

section modEngine
variable (s : State) (e : EngineId) (f : Engine → Engine)

@[simp] theorem modEngine_deviceReset : (s.modEngine e f).deviceReset = s.deviceReset := rfl
@[simp] theorem modEngine_profile : (s.modEngine e f).profile = s.profile := rfl
@[simp] theorem modEngine_jobs : (s.modEngine e f).jobs = s.jobs := rfl
@[simp] theorem modEngine_free : (s.modEngine e f).free = s.free := rfl
@[simp] theorem modEngine_clean : (s.modEngine e f).clean = s.clean := rfl
@[simp] theorem modEngine_mem : (s.modEngine e f).mem = s.mem := rfl
@[simp] theorem modEngine_queues : (s.modEngine e f).queues = s.queues := rfl
@[simp] theorem modEngine_pointer : (s.modEngine e f).pointer = s.pointer := rfl
@[simp] theorem modEngine_engines : (s.modEngine e f).engines = s.engines.set e (f (s.engine e)) := rfl
@[simp] theorem modEngine_tick : (s.modEngine e f).tick = s.tick := rfl
@[simp] theorem modEngine_ports : (s.modEngine e f).ports = s.ports := rfl
@[simp] theorem modEngine_pending : (s.modEngine e f).pending = s.pending := rfl

end modEngine

/-! ### A ready queue -/

section modQueue
variable (s : State) (p : Port) (f : List Tag → List Tag)

@[simp] theorem modQueue_deviceReset : (s.modQueue p f).deviceReset = s.deviceReset := rfl
@[simp] theorem modQueue_profile : (s.modQueue p f).profile = s.profile := rfl
@[simp] theorem modQueue_jobs : (s.modQueue p f).jobs = s.jobs := rfl
@[simp] theorem modQueue_free : (s.modQueue p f).free = s.free := rfl
@[simp] theorem modQueue_clean : (s.modQueue p f).clean = s.clean := rfl
@[simp] theorem modQueue_mem : (s.modQueue p f).mem = s.mem := rfl
@[simp] theorem modQueue_queues : (s.modQueue p f).queues = s.queues.set p (f (s.queue p)) := rfl
@[simp] theorem modQueue_pointer : (s.modQueue p f).pointer = s.pointer := rfl
@[simp] theorem modQueue_engines : (s.modQueue p f).engines = s.engines := rfl
@[simp] theorem modQueue_tick : (s.modQueue p f).tick = s.tick := rfl
@[simp] theorem modQueue_ports : (s.modQueue p f).ports = s.ports := rfl
@[simp] theorem modQueue_pending : (s.modQueue p f).pending = s.pending := rfl

end modQueue

/-! ### A job record -/

section modJob
variable (s : State) (p : Port) (t : Tag) (f : Job → Job)

@[simp] theorem modJob_deviceReset : (s.modJob p t f).deviceReset = s.deviceReset := rfl
@[simp] theorem modJob_profile : (s.modJob p t f).profile = s.profile := rfl
@[simp] theorem modJob_jobs : (s.modJob p t f).jobs = s.jobs.map fun j => if j.isFor p t then f j else j := rfl
@[simp] theorem modJob_free : (s.modJob p t f).free = s.free := rfl
@[simp] theorem modJob_clean : (s.modJob p t f).clean = s.clean := rfl
@[simp] theorem modJob_mem : (s.modJob p t f).mem = s.mem := rfl
@[simp] theorem modJob_queues : (s.modJob p t f).queues = s.queues := rfl
@[simp] theorem modJob_pointer : (s.modJob p t f).pointer = s.pointer := rfl
@[simp] theorem modJob_engines : (s.modJob p t f).engines = s.engines := rfl
@[simp] theorem modJob_tick : (s.modJob p t f).tick = s.tick := rfl
@[simp] theorem modJob_ports : (s.modJob p t f).ports = s.ports := rfl
@[simp] theorem modJob_pending : (s.modJob p t f).pending = s.pending := rfl

end modJob

/-! ### Freeing an entry -/

section dropJob
variable (s : State) (p : Port) (t : Tag)

@[simp] theorem dropJob_deviceReset : (s.dropJob p t).deviceReset = s.deviceReset := rfl
@[simp] theorem dropJob_profile : (s.dropJob p t).profile = s.profile := rfl
@[simp] theorem dropJob_jobs : (s.dropJob p t).jobs = s.jobs.filter fun j => !j.isFor p t := rfl
@[simp] theorem dropJob_free : (s.dropJob p t).free = s.free := rfl
@[simp] theorem dropJob_clean : (s.dropJob p t).clean = s.clean := rfl
@[simp] theorem dropJob_mem : (s.dropJob p t).mem = s.mem := rfl
@[simp] theorem dropJob_queues : (s.dropJob p t).queues = s.queues := rfl
@[simp] theorem dropJob_pointer : (s.dropJob p t).pointer = s.pointer := rfl
@[simp] theorem dropJob_engines : (s.dropJob p t).engines = s.engines := rfl
@[simp] theorem dropJob_tick : (s.dropJob p t).tick = s.tick := rfl
@[simp] theorem dropJob_ports : (s.dropJob p t).ports = s.ports := rfl
@[simp] theorem dropJob_pending : (s.dropJob p t).pending = s.pending := rfl

end dropJob

/-! ### A return of pages (R38) -/

section returnPages
variable (s : State) (l : List Page)

@[simp] theorem returnPages_deviceReset : (s.returnPages l).deviceReset = s.deviceReset := rfl
@[simp] theorem returnPages_profile : (s.returnPages l).profile = s.profile := rfl
@[simp] theorem returnPages_jobs : (s.returnPages l).jobs = s.jobs := rfl
@[simp] theorem returnPages_free : (s.returnPages l).free = s.free ++ l := rfl
@[simp] theorem returnPages_clean : (s.returnPages l).clean = s.clean := rfl
@[simp] theorem returnPages_mem : (s.returnPages l).mem = s.mem := rfl
@[simp] theorem returnPages_queues : (s.returnPages l).queues = s.queues := rfl
@[simp] theorem returnPages_pointer : (s.returnPages l).pointer = s.pointer := rfl
@[simp] theorem returnPages_engines : (s.returnPages l).engines = s.engines := rfl
@[simp] theorem returnPages_tick : (s.returnPages l).tick = s.tick := rfl
@[simp] theorem returnPages_ports : (s.returnPages l).ports = s.ports := rfl
@[simp] theorem returnPages_pending : (s.returnPages l).pending = s.pending := rfl

end returnPages

/-! ### An allocation (R31) -/

section takePages
variable (s : State) (n : Nat)

@[simp] theorem takePages_deviceReset : (s.takePages n).deviceReset = s.deviceReset := rfl
@[simp] theorem takePages_profile : (s.takePages n).profile = s.profile := rfl
@[simp] theorem takePages_jobs : (s.takePages n).jobs = s.jobs := rfl
@[simp] theorem takePages_free : (s.takePages n).free = s.free.drop n := rfl
@[simp] theorem takePages_clean : (s.takePages n).clean = (s.free.take n).foldl (fun m pg => m ||| pageMark pg) s.clean := rfl
@[simp] theorem takePages_mem : (s.takePages n).mem = s.mem := rfl
@[simp] theorem takePages_queues : (s.takePages n).queues = s.queues := rfl
@[simp] theorem takePages_pointer : (s.takePages n).pointer = s.pointer := rfl
@[simp] theorem takePages_engines : (s.takePages n).engines = s.engines := rfl
@[simp] theorem takePages_tick : (s.takePages n).tick = s.tick := rfl
@[simp] theorem takePages_ports : (s.takePages n).ports = s.ports := rfl
@[simp] theorem takePages_pending : (s.takePages n).pending = s.pending := rfl

end takePages

/-! ### A store in a page (R26) -/

section writePage
variable (s : State) (pg : Page) (o : Nat) (v : Byte)

@[simp] theorem writePage_deviceReset : (s.writePage pg o v).deviceReset = s.deviceReset := rfl
@[simp] theorem writePage_profile : (s.writePage pg o v).profile = s.profile := rfl
@[simp] theorem writePage_jobs : (s.writePage pg o v).jobs = s.jobs := rfl
@[simp] theorem writePage_free : (s.writePage pg o v).free = s.free := rfl
@[simp] theorem writePage_clean : (s.writePage pg o v).clean = s.clean &&& ~~~(pageMark pg) := rfl
@[simp] theorem writePage_mem : (s.writePage pg o v).mem = (if s.isClean pg then s.mem.clearPage pg else s.mem).write (pageAddr pg o) v := rfl
@[simp] theorem writePage_queues : (s.writePage pg o v).queues = s.queues := rfl
@[simp] theorem writePage_pointer : (s.writePage pg o v).pointer = s.pointer := rfl
@[simp] theorem writePage_engines : (s.writePage pg o v).engines = s.engines := rfl
@[simp] theorem writePage_tick : (s.writePage pg o v).tick = s.tick := rfl
@[simp] theorem writePage_ports : (s.writePage pg o v).ports = s.ports := rfl
@[simp] theorem writePage_pending : (s.writePage pg o v).pending = s.pending := rfl

end writePage

/-! ### Reading after an update -/

@[simp] theorem port_modPort_self (s : State) (p : Port) (f : PortUnit → PortUnit) :
    (s.modPort p f).port p = f (s.port p) := PerPort.get_set_self ..

theorem port_modPort_ne (s : State) {p q : Port} (f : PortUnit → PortUnit) (h : q ≠ p) :
    (s.modPort p f).port q = s.port q := PerPort.get_set_ne _ _ h

@[simp] theorem engine_modEngine_self (s : State) (e : EngineId) (f : Engine → Engine) :
    (s.modEngine e f).engine e = f (s.engine e) := PerEngine.get_set_self ..

theorem engine_modEngine_ne (s : State) {e d : EngineId} (f : Engine → Engine) (h : d ≠ e) :
    (s.modEngine e f).engine d = s.engine d := PerEngine.get_set_ne _ _ h

@[simp] theorem queue_modQueue_self (s : State) (p : Port) (f : List Tag → List Tag) :
    (s.modQueue p f).queue p = f (s.queue p) := PerPort.get_set_self ..

theorem queue_modQueue_ne (s : State) {p q : Port} (f : List Tag → List Tag) (h : q ≠ p) :
    (s.modQueue p f).queue q = s.queue q := PerPort.get_set_ne _ _ h

/-- A port unit is read from `ports` alone, an engine from `engines`, a queue from `queues`, a job from `jobs`. -/
theorem port_eq_of_ports {s t : State} (h : s.ports = t.ports) (p : Port) : s.port p = t.port p := by
  simp only [port, h]

theorem engine_eq_of_engines {s t : State} (h : s.engines = t.engines) (e : EngineId) : s.engine e = t.engine e := by
  simp only [engine, h]

theorem queue_eq_of_queues {s t : State} (h : s.queues = t.queues) (p : Port) : s.queue p = t.queue p := by
  simp only [queue, h]

theorem findJob_eq_of_jobs {s t : State} (h : s.jobs = t.jobs) (p : Port) (tag : Tag) :
    s.findJob p tag = t.findJob p tag := by
  simp only [findJob, h]

/-! ### Derived updates as the basic ones -/

theorem setStatus_eq (s : State) (p : Port) (b : StatusBit) : s.setStatus p b = s.modPort p (·.setBit b) := rfl

theorem answer_eq (s : State) (p : Port) (ans : BusAnswer) :
    s.answer p ans = s.modPort p fun u => { u with bus := ans } := rfl

theorem respond_eq (s : State) (p : Port) (code : RespCode) (cmd : BitVec 8) (tag : Tag) (r1 r2 r3 : Word) :
    s.respond p code cmd tag r1 r2 r3 =
      s.modPort p fun u => { u with resp := { r0 := resp0 code cmd tag, r1 := r1, r2 := r2, r3 := r3 } } := rfl

theorem pushNotice_eq (s : State) (p : Port) (n : Notice) : s.pushNotice p n = s.modPort p (·.pushNotice n) := rfl

theorem vacateSlot_eq (s : State) (p : Port) :
    s.vacateSlot p = s.modPort p fun u => { u with slot := none, checker := Checker.cleared } := rfl

theorem unqueue_eq (s : State) (p : Port) (t : Tag) : s.unqueue p t = s.modQueue p (·.filter (· != t)) := rfl

theorem unmapWindow_eq (s : State) (p : Port) :
    s.unmapWindow p = s.modPort p fun u => { u with window := none } := rfl

theorem modChecker_eq (s : State) (p : Port) (f : Checker → Checker) :
    s.modChecker p f = s.modPort p fun u => { u with checker := f u.checker } := rfl

end Sys2Proof.Machine.State
end

