-- ==== Sys2Proof/Laws/Access.lean ====
section
/-! SUPPORT. One lemma for each case of an access, a performed write, a performed read and a CMD write (Tables 8-1 to 8-3,
R164), which proofs cite instead of unfolding the bus. -/

namespace Sys2Proof.Machine.State

/-! ### Lines 1 to 3 of Table 8-1 -/

theorem portClosed_false_iff (s : State) (p : Port) :
    s.portClosed p = false ↔ s.deviceReset = false ∧ s.profile.enables p = true ∧ (s.port p).resetHeld = false := by
  simp [portClosed, and_assoc]

/-! ### Writes -/

theorem writeAccess_closed {s : State} {p : Port} (h : s.portClosed p = true) (a : WordAddr) (w : Word)
    (bus : WriteParity) : s.writeAccess p a w bus = s.answer p (.wrote (writeTarget a).crosses true) := by
  simp [writeAccess, h]

theorem writeAccess_badAddress {s : State} {p : Port} (h : s.portClosed p = false) {a : WordAddr} (w : Word)
    {bus : WriteParity} (ha : addrParityGood a true bus.addr = false) :
    s.writeAccess p a w bus = (s.setStatus p .addrParity).answer p (.wrote (writeTarget a).crosses true) := by
  simp [writeAccess, h, ha]

theorem writeAccess_performed {s : State} {p : Port} (h : s.portClosed p = false) {a : WordAddr} (w : Word)
    {bus : WriteParity} (ha : addrParityGood a true bus.addr = true) :
    s.writeAccess p a w bus =
      (s.performWrite p (writeTarget a) w (dataParityGood w bus.data)).answer p
        (.wrote (writeTarget a).crosses false) := by
  simp [writeAccess, h, ha]

/-- A good write to a word of the port unit itself. -/
theorem performWrite_word (s : State) (p : Port) {target : WriteTarget} (w : Word) (hc : target ≠ .cmd)
    (hs : ∀ st, target ≠ .stream st) (hx : target ≠ .stray) :
    s.performWrite p target w true = s.modPort p (·.writeWord target w) := by
  cases target <;> simp_all [performWrite]

/-- A bad write to a word of the port unit itself (Table 8-3). -/
theorem performWrite_badWord (s : State) (p : Port) {target : WriteTarget} (w : Word) (hc : target ≠ .cmd)
    (hs : ∀ st, target ≠ .stream st) (hx : target ≠ .stray) :
    s.performWrite p target w false = s.modPort p fun u => (u.badWrite target).setBit .dataParity := by
  cases target <;> simp_all [performWrite]

@[simp] theorem performWrite_cmd (s : State) (p : Port) (w : Word) (good : Bool) :
    s.performWrite p .cmd w good = s.commandWrite p w good := rfl

@[simp] theorem performWrite_stream (s : State) (p : Port) (st : Stream) (w : Word) (good : Bool) :
    s.performWrite p (.stream st) w good = s.streamWord p st w good := rfl

/-! ### CMD -/

@[simp] theorem code_cmdWord (reserved : BitVec 24) (code : BitVec 8) :
    (cmdWord reserved code).extractLsb' 0 8 = code := by
  ext i hi
  simp only [cmdWord, BitVec.getElem_extractLsb', Nat.zero_add, BitVec.getLsbD_append, hi, if_true]
  simp [BitVec.getLsbD_eq_getElem hi]

/-- A CMD write that fails the port unit's parity or taint test (R164). -/
theorem commandWrite_refused {s : State} {p : Port} {good : Bool} (h : good = false ∨ (s.port p).taint = true)
    (reserved : BitVec 24) (code : BitVec 8) :
    s.commandWrite p (cmdWord reserved code) good = s.refuseParity p code good := by
  rcases h with h | h <;> simp [commandWrite, h]

/-- A CMD write that passes them. -/
theorem commandWrite_taken {s : State} {p : Port} (h : (s.port p).taint = false) (reserved : BitVec 24)
    (code : BitVec 8) : s.commandWrite p (cmdWord reserved code) true = s.takeCommand p code := by
  simp [commandWrite, h]

@[simp] theorem takeCommand_open (s : State) (p : Port) : s.takeCommand p codeOpen = s.jobOpen p := rfl
@[simp] theorem takeCommand_trigger (s : State) (p : Port) : s.takeCommand p codeTrigger = s.jobTrigger p := rfl
@[simp] theorem takeCommand_abort (s : State) (p : Port) : s.takeCommand p codeAbort = s.jobAbort p := rfl
@[simp] theorem takeCommand_collect (s : State) (p : Port) : s.takeCommand p codeCollect = s.jobCollect p := rfl
@[simp] theorem takeCommand_release (s : State) (p : Port) : s.takeCommand p codeRelease = s.jobRelease p := rfl
@[simp] theorem takeCommand_query (s : State) (p : Port) : s.takeCommand p codeQuery = s.jobQuery p := rfl
@[simp] theorem takeCommand_portReset (s : State) (p : Port) : s.takeCommand p codePortReset = s.jobPortReset p := rfl

/-- A code that names no command (Table 8-4). -/
theorem takeCommand_bad (s : State) (p : Port) {code : BitVec 8} (h : code = 0 ∨ 8 ≤ code.toNat) :
    s.takeCommand p code = s.refuseCode p code := by
  have hne : ∀ c : BitVec 8, 1 ≤ c.toNat ∧ c.toNat < 8 → code ≠ c := by
    rintro c hc rfl
    rcases h with rfl | h
    · simp at hc
    · omega
  have h1 := hne codeOpen (by decide)
  have h2 := hne codeTrigger (by decide)
  have h3 := hne codeAbort (by decide)
  have h4 := hne codeCollect (by decide)
  have h5 := hne codeRelease (by decide)
  have h6 := hne codeQuery (by decide)
  have h7 := hne codePortReset (by decide)
  simp [takeCommand, h1, h2, h3, h4, h5, h6, h7]

/-- The whole of a CMD write that reaches the job table: the command, then the normal answer. -/
theorem writeAccess_command {s : State} {p : Port} (h : s.portClosed p = false) (ht : (s.port p).taint = false)
    (reserved : BitVec 24) (code : BitVec 8) {bus : WriteParity} (ha : addrParityGood cmdAddr true bus.addr = true)
    (hd : dataParityGood (cmdWord reserved code) bus.data = true) :
    s.writeAccess p cmdAddr (cmdWord reserved code) bus = (s.takeCommand p code).answer p (.wrote true false) := by
  rw [writeAccess_performed h _ ha, hd, writeTarget_cmdAddr, performWrite_cmd, commandWrite_taken ht]
  rfl

/-! ### Reads -/

theorem readAccess_closed {s : State} {p : Port} (h : s.portClosed p = true) (a : WordAddr) (par : Bool) :
    s.readAccess p a par = s.answer p faultRead := by
  simp [readAccess, h]

theorem readAccess_badAddress {s : State} {p : Port} (h : s.portClosed p = false) {a : WordAddr} {par : Bool}
    (ha : addrParityGood a false par = false) :
    s.readAccess p a par = (s.setStatus p .addrParity).answer p faultRead := by
  simp [readAccess, h, ha]

theorem readAccess_performed {s : State} {p : Port} (h : s.portClosed p = false) {a : WordAddr} {par : Bool}
    (ha : addrParityGood a false par = true) : s.readAccess p a par = s.performRead p (readTarget a) := by
  simp [readAccess, h, ha]

theorem performRead_notice_empty {s : State} {p : Port} (h : (s.port p).notices = []) :
    s.performRead p .notice = s.answer p (goodRead 0) := by
  simp [performRead, h]

theorem performRead_notice_cons {s : State} {p : Port} {n : Notice} {rest : List Notice}
    (h : (s.port p).notices = n :: rest) :
    s.performRead p .notice = (s.modPort p fun u => { u with notices := rest }).answer p (goodRead n.word) := by
  simp [performRead, h]

theorem performRead_window_some {s : State} {p : Port} {o : Nat} {w : Word} (h : s.windowWord p o = some w) :
    s.performRead p (.window o) = s.answer p (goodRead w) := by
  simp [performRead, h]

theorem performRead_window_none {s : State} {p : Port} {o : Nat} (h : s.windowWord p o = none) :
    s.performRead p (.window o) = (s.setStatus p .strayRead).answer p (goodRead 0) := by
  simp [performRead, h]

/-! ### Frames: a word of one port unit changes nothing else -/

/-- What the window serves (R147). -/
theorem windowWord_eq_some {s : State} {p : Port} {o : Nat} {w : Word} :
    s.windowWord p o = some w ↔
      ∃ t j, (s.port p).window = some t ∧ s.findJob p t = some j ∧ o < j.params.outputLength ∧
        w = s.readAreaWord j.output o := by
  unfold windowWord
  split
  · next h => simp [h]
  · next t h =>
    split
    · next hf => simp [h, hf]
    · next j hf => by_cases ho : o < j.params.outputLength <;> simp [h, hf, ho, eq_comm]

end Sys2Proof.Machine.State
end

