-- ==== Sys2Proof/Laws/Jobs.lean ====
section
/-! SUPPORT. The job table as a list of records: what a search by owner and tag finds, and what the updates of a record, the
freeing of an entry and the trigger of a job leave. -/

namespace Sys2Proof.Machine

theorem Job.isFor_iff (j : Job) (p : Port) (t : Tag) : j.isFor p t = true ↔ j.owner = p ∧ j.tag = t := by
  simp [Job.isFor]

namespace State

theorem findJob_some {s : State} {p : Port} {t : Tag} {j : Job} (h : s.findJob p t = some j) :
    j ∈ s.jobs ∧ j.owner = p ∧ j.tag = t :=
  ⟨List.mem_of_find?_eq_some h, (j.isFor_iff p t).1 (by
    have h' : s.jobs.find? (fun k => k.isFor p t) = some j := h
    simpa using List.find?_some h')⟩

theorem findJob_none {s : State} {p : Port} {t : Tag} :
    s.findJob p t = none ↔ ∀ j ∈ s.jobs, ¬ (j.owner = p ∧ j.tag = t) := by
  simp only [findJob, List.find?_eq_none, ← Job.isFor_iff]

/-- A freed tag is not found. -/
theorem findJob_dropJob_self (s : State) (p : Port) (t : Tag) : (s.dropJob p t).findJob p t = none := by
  rw [findJob_none]
  intro j hj hjt
  have := (List.mem_filter.1 (dropJob_jobs s p t ▸ hj)).2
  simp [(Job.isFor_iff j p t).2 hjt] at this

/-- Every other job is found as before. -/
theorem findJob_dropJob_other (s : State) {p q : Port} {t u : Tag} (h : ¬ (q = p ∧ u = t)) :
    (s.dropJob p t).findJob q u = s.findJob q u := by
  simp only [findJob, dropJob_jobs, List.find?_filter]
  refine List.find?_congr fun j _ => ?_
  simp only [Job.isFor]
  grind

/-- A change of one record that keeps its owner and tag leaves every other record. -/
theorem findJob_modJob_other (s : State) {p q : Port} {t u : Tag} (f : Job → Job)
    (hf : ∀ j : Job, (f j).owner = j.owner ∧ (f j).tag = j.tag) (h : ¬ (q = p ∧ u = t)) :
    (s.modJob p t f).findJob q u = s.findJob q u := by
  simp only [findJob, modJob_jobs]
  induction s.jobs with
  | nil => rfl
  | cons j js ih =>
    simp only [List.map_cons, List.find?_cons]
    split <;> rename_i hj <;> simp only [Job.isFor] at * <;> grind

/-- The changed record is found. -/
theorem findJob_modJob_self (s : State) (p : Port) (t : Tag) (f : Job → Job)
    (hf : ∀ j : Job, (f j).owner = j.owner ∧ (f j).tag = j.tag) :
    (s.modJob p t f).findJob p t = (s.findJob p t).map f := by
  simp only [findJob, modJob_jobs]
  induction s.jobs with
  | nil => rfl
  | cons j js ih =>
    simp only [List.map_cons, List.find?_cons]
    split <;> rename_i hj <;> simp only [Job.isFor] at * <;> grind

/-! ### Freeing a job (R15) -/

section freeJob
variable (s : State) (j : Job)

@[simp] theorem untie_jobs : (s.untie j).jobs = s.jobs := by unfold untie; split <;> rfl
@[simp] theorem untie_free : (s.untie j).free = s.free := by unfold untie; split <;> rfl
@[simp] theorem untie_clean : (s.untie j).clean = s.clean := by unfold untie; split <;> rfl
@[simp] theorem untie_mem : (s.untie j).mem = s.mem := by unfold untie; split <;> rfl
@[simp] theorem untie_engines : (s.untie j).engines = s.engines := by unfold untie; split <;> rfl
@[simp] theorem untie_pointer : (s.untie j).pointer = s.pointer := by unfold untie; split <;> rfl
@[simp] theorem untie_tick : (s.untie j).tick = s.tick := by unfold untie; split <;> rfl
@[simp] theorem untie_profile : (s.untie j).profile = s.profile := by unfold untie; split <;> rfl
@[simp] theorem untie_deviceReset : (s.untie j).deviceReset = s.deviceReset := by unfold untie; split <;> rfl
@[simp] theorem untie_pending : (s.untie j).pending = s.pending := by unfold untie; split <;> rfl

/-- Freeing: the lists go to the tail of the free list, input first, and the record is cleared (R15, R38). -/
@[simp] theorem freeJob_free : (s.freeJob j).free = s.free ++ j.pages := by simp [freeJob]
@[simp] theorem freeJob_jobs : (s.freeJob j).jobs = s.jobs.filter fun k => !k.isFor j.owner j.tag := by simp [freeJob]
@[simp] theorem freeJob_clean : (s.freeJob j).clean = s.clean := by simp [freeJob]
@[simp] theorem freeJob_mem : (s.freeJob j).mem = s.mem := by simp [freeJob]
@[simp] theorem freeJob_engines : (s.freeJob j).engines = s.engines := by simp [freeJob]
@[simp] theorem freeJob_pointer : (s.freeJob j).pointer = s.pointer := by simp [freeJob]
@[simp] theorem freeJob_tick : (s.freeJob j).tick = s.tick := by simp [freeJob]
@[simp] theorem freeJob_profile : (s.freeJob j).profile = s.profile := by simp [freeJob]
@[simp] theorem freeJob_deviceReset : (s.freeJob j).deviceReset = s.deviceReset := by simp [freeJob]
@[simp] theorem freeJob_pending : (s.freeJob j).pending = s.pending := by simp [freeJob]

/-- Another port's unit and queue are untouched by the freeing. -/
theorem freeJob_port_other {q : Port} (h : q ≠ j.owner) : (s.freeJob j).port q = s.port q := by
  unfold freeJob untie
  split <;> first | rfl | exact PerPort.get_set_ne _ _ h

theorem freeJob_queue_other {q : Port} (h : q ≠ j.owner) : (s.freeJob j).queue q = s.queue q := by
  unfold freeJob untie
  split <;> first | rfl | exact PerPort.get_set_ne _ _ h

end freeJob

/-! ### Triggering (R12, R71) -/

/-- Everything a trigger of a STAGING job does. -/
theorem triggerJob_staging {s : State} {p : Port} {t : Tag} {j : Job} (h : s.findJob p t = some j)
    (hj : j.isStaging = true) :
    s.triggerJob p t =
      { s with jobs := s.jobs.map fun k => if k.isFor p t then k.queued (s.port p).checker.clamp else k
               ports := s.ports.set p { s.port p with slot := none, checker := Checker.cleared }
               queues := s.queues.set p (s.queue p ++ [t]) } := by
  simp only [triggerJob, h, hj, if_true]
  rfl

/-- A trigger of any other record is not taken (log 18). -/
theorem triggerJob_other {s : State} {p : Port} {t : Tag} (h : ∀ j, s.findJob p t = some j → j.isStaging = false) :
    s.triggerJob p t = s := by
  unfold triggerJob
  split
  · next j hj => simp [h j hj]
  · rfl

end State

/-! ### Ascending order of tag -/

theorem perm_insertByTag (j : Job) (l : List Job) : (insertByTag j l).Perm (j :: l) := by
  induction l with
  | nil => exact .refl _
  | cons k l ih =>
    simp only [insertByTag]
    split
    · exact .refl _
    · exact (ih.cons k).trans (.swap j k l)

/-- The jobs a port reset frees are the jobs selected, in another order. -/
theorem perm_sortByTag (l : List Job) : (sortByTag l).Perm l := by
  induction l with
  | nil => exact .refl _
  | cons j l ih => exact (perm_insertByTag j _).trans (ih.cons j)

theorem pairwise_insertByTag {j : Job} {l : List Job} (h : l.Pairwise fun a b => a.tag.toNat ≤ b.tag.toNat) :
    (insertByTag j l).Pairwise fun a b => a.tag.toNat ≤ b.tag.toNat := by
  induction l with
  | nil => simp [insertByTag]
  | cons k l ih =>
    have hk := List.pairwise_cons.1 h
    simp only [insertByTag]
    split
    · next hjk =>
      refine List.pairwise_cons.2 ⟨fun a ha => ?_, h⟩
      rcases List.mem_cons.1 ha with rfl | ha
      · exact hjk
      · exact Nat.le_trans hjk (hk.1 a ha)
    · next hjk =>
      refine List.pairwise_cons.2 ⟨fun a ha => ?_, ih hk.2⟩
      rcases List.mem_cons.1 ((perm_insertByTag j l).mem_iff.1 ha) with rfl | ha
      · omega
      · exact hk.1 a ha

/-- They stand in ascending order of tag (R22, R39). -/
theorem pairwise_sortByTag (l : List Job) : (sortByTag l).Pairwise fun a b => a.tag.toNat ≤ b.tag.toNat := by
  induction l with
  | nil => exact .nil
  | cons j l ih => exact pairwise_insertByTag ih

end Sys2Proof.Machine
end

