-- ==== Sys2Proof/Laws/Engines.lean ====
section
/-! SUPPORT. One lemma for each case of a boundary, a report, a notice push, a grant and the hold timer's events. -/

namespace Sys2Proof.Machine

/-! ### Notices (R175) -/

theorem PortUnit.pushNotice_held {u : PortUnit} (h : u.resetHeld = true) (n : Notice) : u.pushNotice n = u := by
  simp [PortUnit.pushNotice, h]

theorem PortUnit.pushNotice_full {u : PortUnit} (h : u.resetHeld = false) (hl : 16 ≤ u.notices.length) (n : Notice) :
    u.pushNotice n = u.setBit .noticeOverrun := by
  simp [PortUnit.pushNotice, h, hl]

theorem PortUnit.pushNotice_room {u : PortUnit} (h : u.resetHeld = false) (hl : u.notices.length < 16) (n : Notice) :
    u.pushNotice n = { u with notices := u.notices ++ [n] } := by
  simp [PortUnit.pushNotice, h, Nat.not_le.2 hl]

/-- A push changes the queue and the raw bits of the unit, and nothing else. -/
theorem PortUnit.pushNotice_frame (u : PortUnit) (n : Notice) :
    u.pushNotice n = { u with notices := (u.pushNotice n).notices, raw := (u.pushNotice n).raw } := by
  unfold PortUnit.pushNotice
  split_ifs <;> rfl

theorem PortUnit.length_pushNotice {u : PortUnit} (h : u.notices.length ≤ 16) (n : Notice) :
    (u.pushNotice n).notices.length ≤ 16 := by
  unfold PortUnit.pushNotice
  split_ifs
  · exact h
  · exact h
  · simp only [List.length_append, List.length_singleton]; omega

namespace State

/-! ### Boundaries (R91) -/

/-- A boundary that reads no goes on, with the abort-seen flag clear. -/
theorem boundary_no {s : State} {e : EngineId} {j : Job} (h : j.abortRequested = false) (proceed : State → State) :
    s.boundary e j proceed = proceed (s.modEngine e fun g => { g with abortSeen := false }) := by
  simp [boundary, h]

/-- A boundary that reads yes makes the abort report. -/
theorem boundary_yes {s : State} {e : EngineId} {j : Job} (h : j.abortRequested = true) (proceed : State → State) :
    s.boundary e j proceed = (s.modEngine e fun g => { g with abortSeen := true }).abortReport e j := by
  simp [boundary, h]

/-- What a stage's end needs: the part is out of reset, the engine is in that stage, and it is bound to a job that names
it. -/
theorem inStage_some {s : State} {e : EngineId} {stage : Stage} {j : Job} {pr : Params}
    (h : s.inStage e stage = some (j, pr)) :
    s.deviceReset = false ∧ (s.engine e).stage = stage ∧ (s.engine e).bound = some ⟨j.owner, j.tag⟩ ∧
      s.findJob j.owner j.tag = some j ∧ j.engine = some e ∧ (s.engine e).params = some pr := by
  unfold inStage at h
  split at h
  · simp at h
  · next hc =>
    simp only [Bool.or_eq_true, bne_iff_ne, ne_eq, not_or, Bool.not_eq_true, Decidable.not_not] at hc
    split at h
    · next j' pr' hb hp =>
      obtain ⟨rfl, rfl⟩ : j' = j ∧ pr' = pr := by simpa using h
      unfold boundJob at hb
      split at hb
      · next id hid =>
        split at hb
        · next k hk =>
          split at hb
          · next he =>
            obtain rfl : k = j' := by simpa using hb
            obtain ⟨-, h1, h2⟩ := findJob_some hk
            rw [h1, h2]
            exact ⟨hc.1, hc.2, hid, hk, he, hp⟩
          · simp at hb
        · simp at hb
      · simp at hb
    · simp at h

theorem inStage_of {s : State} {e : EngineId} {stage : Stage} {j : Job} {pr : Params} (hr : s.deviceReset = false)
    (hs : (s.engine e).stage = stage) (hb : (s.engine e).bound = some ⟨j.owner, j.tag⟩)
    (hf : s.findJob j.owner j.tag = some j) (he : j.engine = some e) (hp : (s.engine e).params = some pr) :
    s.inStage e stage = some (j, pr) := by
  simp [inStage, boundJob, hr, hs, hb, hf, he, hp]

/-! ### Grants (R79, R80) -/

/-- Everything a grant to a QUEUED job does. -/
theorem grantTo_queued {s : State} {e : EngineId} {p : Port} {t : Tag} {j : Job} (h : s.findJob p t = some j)
    (hj : j.isQueued = true) :
    s.grantTo e p t =
      { s with queues := s.queues.set p ((s.queue p).drop 1)
               jobs := s.jobs.map fun k => if k.isFor p t then k.granted e else k
               engines := s.engines.set e ((s.engine e).startPrime ⟨p, t⟩ j.params)
               pointer := p } := by
  simp only [grantTo, h, hj, if_true]
  rfl

/-- What a grant chooses: an IDLE engine, and the head of a queue in the search order. -/
theorem grantChoice_some {s : State} {e : EngineId} {p : Port} {t : Tag} (h : s.grantChoice = some (e, p, t)) :
    s.idleEngine = some e ∧ s.firstHead (searchOrder s.pointer) = some (p, t) := by
  unfold grantChoice at h
  split at h <;> simp_all

theorem firstHead_some {s : State} {ps : List Port} {p : Port} {t : Tag} (h : s.firstHead ps = some (p, t)) :
    p ∈ ps ∧ ∃ rest, s.queue p = t :: rest := by
  induction ps with
  | nil => simp [firstHead] at h
  | cons q ps ih =>
    simp only [firstHead] at h
    split at h
    · next u rest hq =>
      obtain ⟨rfl, rfl⟩ : q = p ∧ u = t := by simpa using h
      exact ⟨by simp, rest, hq⟩
    · obtain ⟨h1, h2⟩ := ih h
      exact ⟨by simp [h1], h2⟩

theorem idleEngine_some {s : State} {e : EngineId} (h : s.idleEngine = some e) : (s.engine e).stage = .idle := by
  unfold idleEngine at h
  split_ifs at h <;> simp_all

/-! ### The hold timer (R136, R139) -/

@[simp] theorem tickOnce_reset {s : State} (h : s.deviceReset = true) : s.tickOnce = s := by simp [tickOnce, h]

theorem tickOnce_running {s : State} (h : s.deviceReset = false) :
    s.tickOnce = { s with tick := s.tick + 1#32, jobs := s.jobs.map (·.raiseExpiry (s.tick + 1#32)) } := by
  simp [tickOnce, h]

/-- Raising an expiry keeps every field of a record but the mark. -/
theorem raiseExpiry_keeps (now : Tick) (j : Job) :
    (j.raiseExpiry now).owner = j.owner ∧ (j.raiseExpiry now).tag = j.tag ∧ (j.raiseExpiry now).pages = j.pages ∧
      (j.raiseExpiry now).params = j.params ∧ (j.raiseExpiry now).abortRequested = j.abortRequested ∧
      (j.raiseExpiry now).phase.code = j.phase.code := by
  obtain ⟨_, _, _, _, _, ph⟩ := j
  rcases ph with _ | _ | _ | _ | ⟨o, d, r⟩ | _ <;> try exact ⟨rfl, rfl, rfl, rfl, rfl, rfl⟩
  cases d <;> exact ⟨rfl, rfl, rfl, rfl, rfl, rfl⟩

end State

end Sys2Proof.Machine
end

