-- ==== Sys2Proof/Laws/Memory.lean ====
section
/-! SUPPORT. What the buffer store's operations do: a byte reads as it was last written, every operation keeps the canonical
form, and one spec lemma each for a page write, an area write and the two moves of pages. -/

namespace Sys2Proof.Machine

/-! ### Bytes -/

theorem Memory.read_eq_unlisted {m : Memory} {a : Nat} (h : ∀ c ∈ m, a < c.1) : m.read a = unlistedByte := by
  induction m with
  | nil => rfl
  | cons c m ih =>
    have hc := h c (by simp)
    simp only [Memory.read, if_neg (Nat.ne_of_gt hc)]
    exact ih fun d hd => h d (by simp [hd])

theorem Memory.wf_nil : Memory.wf [] := ⟨List.Pairwise.nil, by simp⟩

theorem Memory.wf_tail {c : Host.Cell} {m : Memory} (h : Memory.wf (c :: m)) : Memory.wf m :=
  ⟨(List.pairwise_cons.1 h.1).2, fun d hd => h.2 d (by simp [hd])⟩

theorem Memory.wf_head_lt {c : Host.Cell} {m : Memory} (h : Memory.wf (c :: m)) : ∀ d ∈ m, c.1 < d.1 :=
  (List.pairwise_cons.1 h.1).1

/-- Every entry after a write is the entry written or one of before. -/
theorem Memory.mem_write {m : Memory} {a : Nat} {b : Byte} {c : Host.Cell} (h : c ∈ m.write a b) :
    c ∈ m ∨ (c = (a, b) ∧ b ≠ unlistedByte) := by
  induction m with
  | nil => simp only [Memory.write] at h; split at h <;> simp_all
  | cons d m ih =>
    obtain ⟨k, v⟩ := d
    simp only [Memory.write] at h
    repeat' split at h
    all_goals grind

theorem Memory.wf_write {m : Memory} (h : m.wf) (a : Nat) (b : Byte) : (m.write a b).wf := by
  induction m with
  | nil =>
    simp only [Memory.write]
    split <;> simp_all [Memory.wf]
  | cons d m ih =>
    obtain ⟨k, v⟩ := d
    have ht := ih (Memory.wf_tail h)
    have hl := Memory.wf_head_lt h
    have hv : v ≠ unlistedByte := h.2 (k, v) (by simp)
    simp only [Memory.write]
    split_ifs with h1 h2 h3 h4
    · exact h
    · refine ⟨List.pairwise_cons.2 ⟨fun c hc => ?_, h.1⟩, fun c hc => ?_⟩
      · rcases List.mem_cons.1 hc with rfl | hc
        · exact h1
        · exact Nat.lt_trans h1 (hl c hc)
      · rcases List.mem_cons.1 hc with rfl | hc
        · exact h2
        · exact h.2 c hc
    · exact Memory.wf_tail h
    · subst h3
      refine ⟨List.pairwise_cons.2 ⟨hl, (Memory.wf_tail h).1⟩, fun c hc => ?_⟩
      rcases List.mem_cons.1 hc with rfl | hc
      · exact h4
      · exact h.2 c (by simp [hc])
    · refine ⟨List.pairwise_cons.2 ⟨fun c hc => ?_, ht.1⟩, fun c hc => ?_⟩
      · rcases Memory.mem_write hc with hc | ⟨rfl, -⟩
        · exact hl c hc
        · simp only; omega
      · rcases List.mem_cons.1 hc with rfl | hc
        · exact hv
        · exact ht.2 c hc

/-- Read after write. -/
theorem Memory.read_write {m : Memory} (h : m.wf) (a : Nat) (b : Byte) (x : Nat) :
    (m.write a b).read x = if x = a then b else m.read x := by
  induction m with
  | nil =>
    simp only [Memory.write]
    split <;> simp_all [Memory.read, eq_comm]
  | cons d m ih =>
    obtain ⟨k, v⟩ := d
    have ht := ih (Memory.wf_tail h)
    have hl := Memory.wf_head_lt h
    have gone : ∀ y, y ≤ k → Memory.read m y = unlistedByte := fun y hy =>
      Memory.read_eq_unlisted fun c hc => Nat.lt_of_le_of_lt hy (hl c hc)
    simp only [Memory.write]
    split_ifs <;> (try simp only [Memory.read, ht]) <;> grind

theorem Memory.wf_clearPage {m : Memory} (h : m.wf) (pg : Page) : (m.clearPage pg).wf :=
  ⟨h.1.filter _, fun c hc => h.2 c (List.mem_filter.1 hc).1⟩

/-- A cleared page reads 0 and every other byte reads as before. -/
theorem Memory.read_clearPage (m : Memory) (pg : Page) (x : Nat) :
    (m.clearPage pg).read x = if x / 1024 = pg.val then unlistedByte else m.read x := by
  induction m with
  | nil => simp [Memory.clearPage, Memory.read]
  | cons c m ih =>
    obtain ⟨k, v⟩ := c
    simp only [Memory.clearPage, List.filter_cons] at ih ⊢
    by_cases hk : k / 1024 = pg.val
    · simp only [hk, bne_self_eq_false, Bool.false_eq_true, if_false, ih, Memory.read]
      grind
    · simp only [bne_iff_ne.2 hk, if_true, Memory.read, ih]
      grind

/-! ### Pages -/

theorem getLsbD_pageMark (pg q : Page) : (pageMark pg).getLsbD q.val = decide (q = pg) := by
  have := q.isLt
  have := pg.isLt
  simp only [pageMark, BitVec.getLsbD_shiftLeft, BitVec.getLsbD_one, Fin.ext_iff]
  grind

@[simp] theorem State.isClean_writePage (s : State) (pg q : Page) (o : Nat) (v : Byte) :
    (s.writePage pg o v).isClean q = (s.isClean q && decide (q ≠ pg)) := by
  have := getLsbD_pageMark pg q
  simp only [State.isClean, State.writePage_clean, BitVec.getLsbD_and, BitVec.getLsbD_not, this]
  have := q.isLt
  grind

theorem State.wf_writePage {s : State} (h : s.mem.wf) (pg : Page) (o : Nat) (v : Byte) :
    (s.writePage pg o v).mem.wf := by
  rw [State.writePage_mem]
  split
  · exact Memory.wf_write (Memory.wf_clearPage h pg) _ _
  · exact Memory.wf_write h _ _

/-- A store in a page changes that byte and no other (R26). -/
theorem State.readPage_writePage {s : State} (h : s.mem.wf) (pg q : Page) {o x : Nat} (v : Byte)
    (ho : o < 1024) (hx : x < 1024) :
    (s.writePage pg o v).readPage q x = if q = pg ∧ x = o then v else s.readPage q x := by
  have haddr : pageAddr q x = pageAddr pg o ↔ q = pg ∧ x = o := by
    simp only [pageAddr, Fin.ext_iff]; omega
  have hdiv : pageAddr q x / 1024 = q.val := by simp only [pageAddr]; omega
  simp only [State.readPage, State.isClean_writePage, State.writePage_mem]
  by_cases hc : s.isClean pg
  · rw [if_pos hc, Memory.read_write (Memory.wf_clearPage h pg), Memory.read_clearPage, hdiv]
    simp only [haddr, unlistedByte, Fin.ext_iff] at *
    grind
  · rw [if_neg hc, Memory.read_write h]
    simp only [haddr]
    grind

/-! ### Areas -/

theorem State.writeAreaByte_eq (s : State) (pages : List Page) (o : Nat) (v : Byte) :
    s.writeAreaByte pages o v = s ∨
      ∃ pg ∈ pages, s.writeAreaByte pages o v = s.writePage pg (o % 1024) v := by
  unfold State.writeAreaByte
  split
  · next pg hpg => exact .inr ⟨pg, List.mem_of_getElem? hpg, rfl⟩
  · exact .inl rfl

/-- An area write changes the bytes and the clean markers alone. -/
theorem State.writeArea_frame (s : State) (pages : List Page) (o : Nat) (vs : List Byte) :
    s.writeArea pages o vs =
      { s with mem := (s.writeArea pages o vs).mem, clean := (s.writeArea pages o vs).clean } := by
  induction vs generalizing s o with
  | nil => rfl
  | cons v vs ih =>
    simp only [State.writeArea]
    rw [ih]
    rcases State.writeAreaByte_eq s pages o v with h | ⟨pg, -, h⟩ <;> rw [h]
    rfl

theorem State.wf_writeArea {s : State} (h : s.mem.wf) (pages : List Page) (o : Nat) (vs : List Byte) :
    (s.writeArea pages o vs).mem.wf := by
  induction vs generalizing s o with
  | nil => exact h
  | cons v vs ih =>
    refine ih ?_ _
    rcases State.writeAreaByte_eq s pages o v with e | ⟨pg, -, e⟩ <;> rw [e]
    · exact h
    · exact State.wf_writePage h _ _ _

/-- A page outside the list reads as before (R23). -/
theorem State.readPage_writeArea_other {s : State} (h : s.mem.wf) {pages : List Page} (o : Nat) (vs : List Byte)
    {q : Page} (hq : q ∉ pages) {x : Nat} (hx : x < 1024) :
    (s.writeArea pages o vs).readPage q x = s.readPage q x := by
  induction vs generalizing s o with
  | nil => rfl
  | cons v vs ih =>
    simp only [State.writeArea]
    rcases State.writeAreaByte_eq s pages o v with e | ⟨pg, hpg, e⟩ <;> rw [e]
    · exact ih h _
    · rw [ih (State.wf_writePage h _ _ _), State.readPage_writePage h _ _ _ (Nat.mod_lt _ (by decide)) hx,
        if_neg (fun hh : q = pg ∧ _ => hq (hh.1 ▸ hpg))]

/-- One byte stored in an area of distinct pages. -/
theorem State.readArea_writeAreaByte {s : State} (h : s.mem.wf) {pages : List Page} (hd : pages.Nodup) {o : Nat}
    (ho : o / 1024 < pages.length) (v : Byte) (x : Nat) :
    (s.writeAreaByte pages o v).readArea pages x = if x = o then v else s.readArea pages x := by
  have hpo : pages[o / 1024]? = some pages[o / 1024] := List.getElem?_eq_getElem ho
  simp only [State.writeAreaByte, hpo, State.readArea]
  by_cases hx : x / 1024 < pages.length
  · simp only [List.getElem?_eq_getElem hx]
    rw [State.readPage_writePage h _ _ _ (Nat.mod_lt _ (by decide)) (Nat.mod_lt _ (by decide))]
    have : (x / 1024 = o / 1024 ∧ x % 1024 = o % 1024) ↔ x = o := by omega
    simp only [hd.getElem_inj_iff, this]
  · rw [List.getElem?_eq_none (Nat.le_of_not_lt hx)]
    have : x ≠ o := by rintro rfl; exact hx ho
    simp [this]

/-- Bytes stored in an area of distinct pages, all of them within it: each stands at its offset and every other byte reads
as before (R26, R34, R36). -/
theorem State.readArea_writeArea {s : State} (h : s.mem.wf) {pages : List Page} (hd : pages.Nodup) {o : Nat}
    {vs : List Byte} (hl : o + vs.length ≤ 1024 * pages.length) (x : Nat) :
    (s.writeArea pages o vs).readArea pages x =
      if o ≤ x ∧ x < o + vs.length then vs.getD (x - o) 0 else s.readArea pages x := by
  induction vs generalizing s o with
  | nil => simp [State.writeArea]
  | cons v vs ih =>
    simp only [List.length_cons] at hl
    have ho : o / 1024 < pages.length := by omega
    simp only [State.writeArea]
    have hw : (s.writeAreaByte pages o v).mem.wf := State.wf_writeArea h pages o [v]
    rw [ih hw (by omega), State.readArea_writeAreaByte h hd ho]
    simp only [List.length_cons]
    by_cases hx : x = o
    · subst hx
      have : ¬ (x + 1 ≤ x ∧ x < x + 1 + vs.length) := by omega
      simp
    · by_cases hr : o + 1 ≤ x ∧ x < o + 1 + vs.length
      · have : x - o = (x - (o + 1)) + 1 := by omega
        rw [if_pos hr, if_pos (by omega), this, List.getD_cons_succ]
      · rw [if_neg hr, if_neg hx, if_neg (by omega)]

/-! ### Allocation and return -/

@[simp] theorem State.readPage_returnPages (s : State) (l : List Page) (q : Page) (x : Nat) :
    (s.returnPages l).readPage q x = s.readPage q x := rfl

/-- A page's marker among those an allocation sets. -/
theorem getLsbD_foldl_pageMark (l : List Page) (m : BitVec 256) (q : Page) :
    (l.foldl (fun m pg => m ||| pageMark pg) m).getLsbD q.val = (m.getLsbD q.val || decide (q ∈ l)) := by
  induction l generalizing m with
  | nil => simp
  | cons pg l ih =>
    rw [List.foldl_cons, ih, BitVec.getLsbD_or, getLsbD_pageMark]
    simp only [List.mem_cons]
    grind

/-- The allocated pages are clean and read 0; every other page reads as before (R26, R31). -/
theorem State.readPage_takePages (s : State) (n : Nat) (q : Page) (x : Nat) :
    (s.takePages n).readPage q x = if q ∈ s.free.take n then 0#8 else s.readPage q x := by
  simp only [State.readPage, State.isClean, State.takePages_clean, State.takePages_mem, getLsbD_foldl_pageMark]
  grind

/-- Reset memory has the canonical form. -/
theorem State.reset_mem_wf : State.reset.mem.wf := Memory.wf_nil

end Sys2Proof.Machine
end

