-- ==== Sys2Proof/WellFormed.lean ====
section
/-! DEFINITION. When a term of `Instr` is a command that its row of the table names. The part itself cannot receive
an ill-formed one: it sees a word written at an address. `exec` therefore does what that access does (log 9). -/

namespace Sys2Proof

/-- The codes that name no command: 0 and 8 to 255 (Table 8-4). -/
def isBadCode (code : BitVec 8) : Bool := code.toNat == 0 || 8 ≤ code.toNat

/-- Well-formed commands: BAD_COMMAND carries a code that names no command; STRAY_WRITE an address where a write is
stray; STRAY_READ an address that is neither NOTICE nor the result window, which have rows of their own. Every other
operand is in range by its type. -/
def Instr.wellFormed : Instr → Bool
  | .badCommand _ code _ _ => isBadCode code
  | .strayWrite _ addr _ _ => Machine.writeTarget addr == .stray
  | .strayRead _ addr _ =>
      match Machine.readTarget addr with
      | .notice => false
      | .window _ => false
      | .ident | .settings | .status | .enable | .enabledStatus | .param _ | .resp _ | .stray => true
  | .openJob .. | .trigger .. | .abort .. | .collect .. | .release .. | .query .. | .portReset .. => true
  | .streamWord .. | .paramWrite .. | .settingsWrite .. => true
  | .statusSet .. | .statusClear .. | .enableSet .. | .enableClear .. => true
  | .noticeRead .. | .resultWindowRead .. => true
  | .grant | .endOfPrime _ | .endOfPass1 _ | .endOfPass2 _ | .endOfEvaluate _ | .endOfStore _ => true
  | .tick | .expiry .. => true
  | .deviceReset _ | .powerOn | .deviceResetRelease .. => true
  | .portResetLineAssertion .. | .portResetLineRelease _ => true

end Sys2Proof
end

