-- ==== Sys2Proof/Tests/Slice0.lean ====
section
/-! SUPPORT. The model's own tests: the smoke test of well-formedness, one or two steps of each command with the values that
the spec's examples give, and for each obligation with hypotheses a state that meets them. -/

namespace Sys2Proof.Tests

open Sys2Proof.Machine

-- Each test waits for the kernel; one at a time keeps the number of threads small.
set_option Elab.async false

/-! ### Helpers -/

/-- The parity of a good write of a word at an address. -/
def good (a : WordAddr) (w : Word) : WriteParity := ⟨!(oddOnes a ^^ true), generatedParity w⟩

/-- The same with the parity bit of byte 2 wrong. -/
def spoiled (a : WordAddr) (w : Word) : WriteParity := ⟨!(oddOnes a ^^ true), generatedParity w ^^^ 4#4⟩

/-- The same with the address parity bit wrong. -/
def misaddressed (a : WordAddr) (w : Word) : WriteParity := ⟨oddOnes a ^^ true, generatedParity w⟩

/-- The parity of a good CMD write with the reserved bits at 0. -/
def cmd (code : BitVec 8) : WriteParity := good cmdAddr (cmdWord 0 code)

/-- The address parity of a good read. -/
def readPar (a : WordAddr) : Bool := !oddOnes a

/-- The state after a command. -/
def run (c : Instr) (s : State) : State :=
  match exec c s with
  | .next t => t
  | _ => s

/-- Tag 5, K = 40, min_iter 1, max_iter 2, EITHER, C16, required_matches 1, threshold 0, soft output, CLIENT. -/
def demoWords : Vector Word 6 := #v[5, 0x17210028, 0x200, 0, 0, 0]

def demoParams : Params := (openRecord demoWords).params

/-- A port unit whose PARAM words carry the demonstration job. -/
def demoUnit : PortUnit := { PortUnit.reset with param := demoWords }

/-- Port A's unit put into the state after reset. -/
def withUnit (u : PortUnit) : State := { State.reset with ports := { State.reset.ports with a := u } }

/-- Job 5 of port A in a phase, with input page 0 and output page 1. -/
def demoJob (ph : JobPhase) : Job :=
  { owner := .a, tag := 5, params := demoParams, output := [1], abortRequested := false, phase := ph }

/-- The state whose only job is the demonstration job. -/
def demo (j : Job) (u : PortUnit) : State :=
  { withUnit u with jobs := [j], free := (List.finRange 256).drop (if j.inputPages = [] then 1 else 2) }

def fullChecker : Checker := { Checker.prepared demoParams with received := ⟨11, 11, 11, 20⟩, clamp := 3 }

def outcome : Outcome :=
  { stopReason := .checksum, iterationsDone := 3, checksumOk := some true, quality := none, clampCount := 0, engine := .zero }

/-- STAGING, with a checker. -/
def staging (c : Checker) : State := demo (demoJob (.staging [0])) { demoUnit with slot := some 5, checker := c }

def queued : State := { demo (demoJob (.queued 3 [0])) demoUnit with queues := ⟨[5], [], [], []⟩ }

def held (d : Option Tick) : State := demo { demoJob (.held outcome d false) with output := [0] } demoUnit

def delivering : State := demo { demoJob (.delivering outcome) with output := [0] } { demoUnit with window := some 5 }

/-- Engine 0 in a stage, for the demonstration job. -/
def engineIn (stage : Stage) (n : Nat) : Engine :=
  { Engine.reset with stage := stage, bound := some ⟨.a, 5⟩, params := some demoParams, iteration := n }

/-- DECODING on engine 0. -/
def decoding (g : Engine) : State :=
  { demo (demoJob (.decoding 3 [0] .zero)) demoUnit with engines := ⟨g, Engine.reset⟩ }

/-- ABORTING on engine 0. -/
def aborting (g : Engine) : State :=
  { demo { demoJob (.aborting 3 [0] .zero) with abortRequested := true } demoUnit with engines := ⟨g, Engine.reset⟩ }

def resp (s : State) (p : Port) : Response := (s.port p).resp

/-! ### Well-formedness -/

theorem test_badCommand_refuses_a_code_that_names_a_command :
    (Instr.badCommand .a 1 0 (cmd 1)).wellFormed = false ∧ (Instr.badCommand .a 7 0 (cmd 7)).wellFormed = false ∧
    (Instr.badCommand .a 0 0 (cmd 0)).wellFormed = true ∧ (Instr.badCommand .a 8 0 (cmd 8)).wellFormed = true := by decide

theorem test_strayWrite_refuses_a_writable_address :
    (Instr.strayWrite .a (paramAddr 5) 0 (cmd 0)).wellFormed = false ∧
    (Instr.strayWrite .a cmdAddr 0 (cmd 0)).wellFormed = false ∧
    (Instr.strayWrite .a (apertureAddr .perm 1023) 0 (cmd 0)).wellFormed = false ∧
    (Instr.strayWrite .a noticeAddr 0 (cmd 0)).wellFormed = true ∧
    (Instr.strayWrite .a (windowAddr 0) 0 (cmd 0)).wellFormed = true := by decide +kernel

theorem test_strayRead_refuses_an_address_with_a_row_of_its_own :
    (Instr.strayRead .a noticeAddr true).wellFormed = false ∧
    (Instr.strayRead .a (windowAddr 4095) true).wellFormed = false ∧
    (Instr.strayRead .a statusSetAddr true).wellFormed = true ∧
    (Instr.strayRead .a settingsAddr true).wellFormed = true := by decide +kernel

/-! ### Words that spell commands: none -/

theorem test_no_word_spells_a_command : decodeTableWord 32 1 = none ∧ State.reset.withFetchWord 32 1 = State.reset :=
  ⟨rfl, rfl⟩

/-! ### Commands, with the values of the spec's examples -/

/-- Section 10.7. -/
theorem test_open_words_of_section_10_7 :
    let s := { State.reset with
      ports := { State.reset.ports with c := { PortUnit.reset with param := #v[0x11, 0x2B800400, 0x21E, 7, 0, 0] } } }
    resp (run (.openJob .c 0 (cmd 1)) s) .c = ⟨0x00110101, 0x02000101, 0x00020006, 0⟩ := by decide +kernel

/-- Reason 1, K_RANGE: K = 39. -/
theorem test_open_refused_for_K_below_40 :
    resp (run (.openJob .a 0 (cmd 1)) (withUnit { PortUnit.reset with param := #v[5, 0x10100027, 0, 0, 0, 0] })) .a =
      ⟨0x0005010A, 1, 0, 0⟩ := by decide +kernel

theorem test_trigger_queues_a_complete_job :
    let t := run (.trigger .a 0 (cmd 2)) (staging fullChecker)
    resp t .a = ⟨0x00050201, 3, 1, 0⟩ ∧ t.queue .a = [5] ∧ (t.port .a).slot = none := by decide +kernel

theorem test_trigger_short_of_two_streams :
    resp (run (.trigger .a 0 (cmd 2)) (staging { fullChecker with received := ⟨11, 10, 11, 19⟩ })) .a =
      ⟨0x0005020E, 0xA0, 0, 0⟩ := by decide +kernel

theorem test_abort_of_a_decoding_job :
    let t := run (.abort .a 0 (cmd 3)) (decoding (engineIn .pass1 1))
    resp t .a = ⟨0x00050303, 3, 0, 0⟩ ∧ t.jobs.map (·.abortRequested) = [true] := by decide +kernel

/-- The answer of section 11.4, for tag 5. -/
theorem test_collect_answers_as_in_section_11_4 :
    resp (run (.collect .a 0 (cmd 4)) (held none)) .a = ⟨0x00050401, 0x00033000, 0, 48⟩ := by decide +kernel

theorem test_release_of_a_delivering_job :
    let t := run (.release .a 0 (cmd 5)) delivering
    resp t .a = ⟨0x00050501, 6, 0, 0⟩ ∧ t.jobs = [] ∧ (t.port .a).window = none ∧ t.free.length = 256 := by decide +kernel

/-- The QUERY of section 10.7. -/
theorem test_query_of_section_10_7 :
    let o : Outcome :=
      { stopReason := .checksum, iterationsDone := 4, checksumOk := some true, quality := some 31, clampCount := 3
        engine := .one }
    resp (run (.query .a 0 (cmd 6)) (demo (demoJob (.held o none false)) demoUnit)) .a =
      ⟨0x00050601, 0x1F134015, 0x00010003, 0⟩ := by decide +kernel

theorem test_portReset_counts :
    let t := run (.portReset .a 0 (cmd 7)) (staging fullChecker)
    resp t .a = ⟨0x00000701, 1, 0, 0⟩ ∧ t.jobs = [] ∧ (t.port .a).param[0] = 0 := by decide +kernel

theorem test_badCommand_answers_at_the_port_unit :
    resp (run (.badCommand .a 8 0 (cmd 8)) (staging fullChecker)) .a = ⟨0x00050813, 0, 0, 0⟩ := by decide +kernel

/-- Section 8.6: the taint outlives the good rewrite and refuses the next command. -/
theorem test_tainted_open_refused_as_in_section_8_6 :
    let t := run (.openJob .a 0 (cmd 1)) (withUnit { PortUnit.reset with param := #v[12, 0, 0, 0, 0, 0], taint := true })
    resp t .a = ⟨0x000C0112, 2, 0, 0⟩ ∧ (t.port .a).taint = false := by decide +kernel

theorem test_streamWord_stored_at_its_position :
    let t := run (.streamWord .a .par1 7 0x04E02001 (good (apertureAddr .par1 7) 0x04E02001))
      (staging (Checker.prepared demoParams))
    (List.range 4).map (fun i => t.readArea [0] (44 + i)) = [0x01, 0x20, 0xE0, 0x04] ∧
    (t.port .a).checker.received.par1 = 1 ∧ (t.port .a).checker.clamp = 2 := by decide +kernel

theorem test_streamWord_without_a_job_is_stray :
    ((run (.streamWord .a .sys 0 9 (spoiled (apertureAddr .sys 0) 9)) State.reset).port .a).raw = 0b10010#5 := by
  decide +kernel

theorem test_paramWrite_with_bad_parity_taints :
    let t := run (.paramWrite .a 1 9 (spoiled (paramAddr 1) 9)) (withUnit demoUnit)
    (t.port .a).param = demoWords ∧ (t.port .a).taint = true ∧ (t.port .a).has .dataParity = true := by decide +kernel

theorem test_settingsWrite_takes_twelve_bits :
    ((run (.settingsWrite .a 0xFFFFF123 (good settingsAddr 0xFFFFF123)) State.reset).port .a).holdLimit = 0x123 := by
  decide +kernel

theorem test_status_words_set_and_clear :
    ((run (.statusSet .a 0xFFFFFFC5 (good statusSetAddr 0xFFFFFFC5)) State.reset).port .a).raw = 0b00010#5 ∧
    ((run (.statusClear .a 0x21 (good statusClearAddr 0x21)) (withUnit { demoUnit with raw := 0b11111#5 })).port .a).raw =
      0b01111#5 := by decide +kernel

theorem test_enable_words_drive_the_line :
    let s := withUnit { demoUnit with raw := 0b00010#5 }
    let t := run (.enableSet .a 0x4 (good enableSetAddr 0x4)) s
    s.irq .a = false ∧ t.irq .a = true ∧ (run (.enableClear .a 0x4 (good enableClearAddr 0x4)) t).irq .a = false := by
  decide +kernel

/-- The notice word of section 11.4. -/
theorem test_noticeRead_pops_the_word_of_section_11_4 :
    let n : Notice := { kind := .done, tag := 42, result := some ⟨.checksum, 3, some true⟩ }
    let t := run (.noticeRead .a (readPar noticeAddr)) (withUnit { demoUnit with notices := [n] })
    (t.port .a).bus = .read false 0x002A0331 (generatedParity 0x002A0331) ∧ (t.port .a).notices = [] := by decide +kernel

theorem test_windowRead_serves_below_the_output_length :
    let s := { delivering with mem := [(4, 0x5A)], clean := 0 }
    (run (.resultWindowRead .a 1 (readPar (windowAddr 1))) s).port .a =
      { s.port .a with bus := .read false 0x5A 0xF } ∧
    ((run (.resultWindowRead .a 12 (readPar (windowAddr 12))) s).port .a).has .strayRead = true := by decide +kernel

theorem test_strayWrite_of_notice :
    ((run (.strayWrite .a noticeAddr 1 (good noticeAddr 1)) State.reset).port .a).raw = 0b00010#5 := by decide +kernel

/-- The IDENT of section 10.6: port A in profile 2. -/
theorem test_ident_of_port_A_in_profile_2 :
    ((run (.strayRead .a 0 (readPar 0)) { State.reset with profile := .twoPort }).port .a).bus =
      .read false 0x84810440 (generatedParity 0x84810440) := by decide +kernel

theorem test_grant_binds_engine_0 :
    let t := run .grant queued
    (t.engine .zero).stage = .prime ∧ (t.engine .zero).bound = some ⟨.a, 5⟩ ∧ t.pointer = .a ∧ t.queue .a = [] ∧
    t.jobs = [demoJob (.decoding 3 [0] .zero)] := by decide +kernel

/-- Table 5-4. -/
theorem test_generated_permutations_of_table_5_4 :
    (generatePermutation 40 7 10).1.take 5 = [0, 17, 14, 31, 28] ∧ (generatePermutation 40 7 10).2 = true ∧
    generatePermutation 40 7 5 = ([0, 12, 34, 26, 28], false) ∧
    (generatePermutation 40 2 0).1.length = 20 ∧ (generatePermutation 40 1 0).1 = List.range 40 := by decide +kernel

theorem test_endOfPrime_of_an_invalid_permutation :
    let s := decoding { engineIn .prime 0 with params := some { demoParams with permSource := .generated 7 5 } }
    ((run (.endOfPrime .zero) s).engine .zero).pending = some permInvalidOutcome ∧
    ((run (.endOfPrime .zero) s).engine .zero).permMemory = [0, 12, 34, 26, 28] := by decide +kernel

theorem test_endOfPass1_of_an_aborting_job_frees_it :
    let t := run (.endOfPass1 .zero) (aborting (engineIn .pass1 1))
    (t.engine .zero).stage = .idle ∧ t.jobs = [] ∧ t.free.drop 254 = [0, 1] ∧
    (t.port .a).notices = [{ kind := .aborted, tag := 5, result := none }] := by decide +kernel

theorem test_endOfPass2_begins_evaluate :
    ((run (.endOfPass2 .zero) (decoding (engineIn .pass2 1))).engine .zero).stage = .evaluate := by decide +kernel

/-- Forty decisions of 0 match the checksum. -/
theorem test_endOfEvaluate_stops_on_a_match :
    let g := (run (.endOfEvaluate .zero) (decoding (engineIn .evaluate 1))).engine .zero
    g.stage = .store ∧ g.streak = 1 ∧ g.pending.map (·.stopReason) = some .checksum := by decide +kernel

/-- The deadline of section 11.4: limit 250, tick 37. -/
theorem test_endOfStore_holds_the_job_until_288 :
    let po : PendingOutcome := { stopReason := .checksum, iterationsDone := 3, checksumOk := some true, quality := none }
    let t := run (.endOfStore .zero) { decoding { engineIn .store 3 with pending := some po } with tick := 37 }
    t.jobs.map (·.deadline) = [some 288] ∧ t.free.drop 254 = [0] ∧
    (t.port .a).notices = [{ kind := .done, tag := 5, result := some ⟨.checksum, 3, some true⟩ }] := by decide +kernel

theorem test_tick_wraps_and_raises :
    let t := run .tick { held (some 0) with tick := 0xFFFFFFFF }
    t.tick = 0 ∧ t.jobs.map (·.phase) = [.held outcome (some 0) true] := by decide +kernel

theorem test_expiry_frees_the_job :
    let t := run (.expiry .a 5) { held (some 9) with tick := 9 }
    t.jobs = [] ∧ (t.port .a).notices = [{ kind := .expired, tag := 5, result := none }] := by decide +kernel

theorem test_deviceReset_withdraws_a_held_acknowledgement :
    let u := { demoUnit with slot := some 5, checker := fullChecker, bus := .wrote true false }
    let t := run (.deviceReset ⟨true, false, false, false⟩) (demo (demoJob (.staging [0])) u)
    t.deviceReset = true ∧ t.jobs = [] ∧ t.free.length = 256 ∧ (t.port .a).slot = none ∧
    (t.port .a).bus = .wrote true true := by decide +kernel

theorem test_powerOn_is_a_device_reset :
    (run .powerOn queued).deviceReset = true ∧ (run .powerOn queued).queue .a = [] := by decide +kernel

theorem test_release_samples_the_straps :
    (run (.deviceResetRelease true false) { State.reset with deviceReset := true }).profile = .twoPort ∧
    (run (.deviceResetRelease true false) State.reset).profile = .balanced := by decide +kernel

theorem test_reset_line_holds_the_port :
    let t := run (.portResetLineAssertion .a true) (withUnit { demoUnit with bus := .wrote true false })
    (t.port .a).resetHeld = true ∧ (t.port .a).bus = .wrote true true ∧
    ((run (.portResetLineRelease .a) t).port .a).resetHeld = false := by decide +kernel

/-! ### States that meet the hypotheses of the obligations -/

theorem performs_of {s : State} {p : Port}
    (h : (!s.deviceReset && s.profile.enables p && !(s.port p).resetHeld) = true) : s.Performs p := by
  simp only [Bool.and_eq_true, Bool.not_eq_true'] at h
  exact ⟨h.1.1, h.1.2, h.2⟩

theorem goodWrite_of {s : State} {p : Port} {a : WordAddr} {w : Word} {bus : WriteParity} (hs : s.Performs p)
    (h : (addrParityGood a true bus.addr && dataParityGood w bus.data) = true) : s.GoodWrite p a w bus := by
  simp only [Bool.and_eq_true] at h
  exact ⟨hs, h.1, h.2⟩

theorem passesPort_of {s : State} {p : Port} {code : BitVec 8} (hs : s.Performs p)
    (h : (addrParityGood cmdAddr true (cmd code).addr && dataParityGood (cmdWord 0 code) (cmd code).data) = true)
    (ht : (s.port p).taint = false) : s.PassesPort p 0 code (cmd code) := ⟨goodWrite_of hs h, ht⟩

theorem idsDistinct_of {s : State} (h : (s.jobs.map Job.id).Nodup) : s.IdsDistinct := h

theorem demo_performs : (withUnit demoUnit).Performs .a := performs_of (by decide +kernel)

/-- Lines 1, 2 and 3 of Table 8-1. -/
theorem witness_not_performed :
    ¬ { State.reset with deviceReset := true }.Performs .a ∧ ¬ { State.reset with profile := .twoPort }.Performs .c ∧
    ¬ (withUnit { demoUnit with resetHeld := true }).Performs .a :=
  ⟨fun h => absurd h.released (by decide), fun h => absurd h.enabled (by decide), fun h => absurd h.line (by decide)⟩

theorem witness_StepRunsFrontCommand : State.reset.pending = [] := rfl

/-- Lines 4 and 5 for a write and for a read; lines 1 to 3 are `witness_not_performed`. -/
theorem witness_AccessAnsweredByTable81 :
    asWrite (.openJob .a 0 (cmd 1)) = some (.a, cmdAddr, cmdWord 0 1, cmd 1) ∧
    asRead (.noticeRead .a true) = some (.a, noticeAddr, true) ∧ (withUnit demoUnit).Performs .a ∧
    addrParityGood cmdAddr true (cmd 1).addr = true ∧
    addrParityGood cmdAddr true (misaddressed cmdAddr (cmdWord 0 1)).addr = false ∧
    addrParityGood noticeAddr false (readPar noticeAddr) = true ∧
    addrParityGood noticeAddr false (!readPar noticeAddr) = false :=
  ⟨rfl, rfl, demo_performs, by decide +kernel⟩

/-- Every target of Table 8-3, with byte 2 of the word bad. -/
theorem witness_BadDataParityByTable83 :
    (withUnit demoUnit).Performs .a ∧ (withUnit demoUnit).PerformedRead .a settingsAddr (readPar settingsAddr) ∧
    ([paramAddr 0, cmdAddr, apertureAddr .sys 0, noticeAddr, settingsAddr, statusSetAddr, statusClearAddr, enableSetAddr,
      enableClearAddr].all fun a => addrParityGood a true (spoiled a 7).addr && byteOnes 7 (spoiled a 7).data 2 % 2 == 0) =
      true ∧
    (staging fullChecker).Performs .a ∧ ((staging fullChecker).port .a).slot.isSome = true :=
  ⟨demo_performs, ⟨demo_performs, by decide +kernel⟩, by decide +kernel, performs_of (by decide +kernel), rfl⟩

/-- A bad word, a set taint, codes 0 and 8, codes 1 and 7. -/
theorem witness_CmdWriteTestedInOrder :
    (withUnit demoUnit).Performs .a ∧ (withUnit { demoUnit with taint := true }).Performs .a ∧
    dataParityGood (cmdWord 0 1) (spoiled cmdAddr (cmdWord 0 1)).data = false ∧
    ([0, 8, 1, 7].all fun c : BitVec 8 => addrParityGood cmdAddr true (cmd c).addr && dataParityGood (cmdWord 0 c) (cmd c).data) =
      true ∧
    ((withUnit demoUnit).port .a).taint = false :=
  ⟨demo_performs, performs_of (by decide +kernel), by decide +kernel⟩

theorem witness_ParamWordsKeepLastGoodWrite :
    (withUnit demoUnit).GoodWrite .a (paramAddr 0) 9 (good (paramAddr 0) 9) ∧
    (withUnit demoUnit).GoodWrite .a (paramAddr 5) 9 (good (paramAddr 5) 9) ∧
    dataParityGood 9 (spoiled (paramAddr 5) 9).data = false ∧
    addrParityGood (paramAddr 5) true (spoiled (paramAddr 5) 9).addr = true ∧
    (withUnit demoUnit).PerformedRead .a (paramAddr 5) (readPar (paramAddr 5)) ∧
    addrParityGood (paramAddr 5) true (misaddressed (paramAddr 5) 9).addr = false ∧
    (withUnit demoUnit).PassesPort .a 0 7 (cmd 7) :=
  ⟨goodWrite_of demo_performs (by decide +kernel), goodWrite_of demo_performs (by decide +kernel), by decide +kernel,
    by decide +kernel, ⟨demo_performs, by decide +kernel⟩, by decide +kernel,
    passesPort_of demo_performs (by decide +kernel) (by decide +kernel)⟩

/-- A CMD write that meets the taint, and a PARAM write that sets it. -/
theorem witness_TaintSetAndCleared :
    let s := withUnit { demoUnit with taint := true }
    exec (.query .a 0 (cmd 6)) s = .next (run (.query .a 0 (cmd 6)) s) ∧ s.Performs .a ∧ (s.port .a).taint = true ∧
    asWrite (.query .a 0 (cmd 6)) = some (.a, cmdAddr, cmdWord 0 6, cmd 6) ∧
    asWrite (.paramWrite .a 5 9 (spoiled (paramAddr 5) 9)) = some (.a, paramAddr 5, 9, spoiled (paramAddr 5) 9) ∧
    addrParityGood (paramAddr 5) true (spoiled (paramAddr 5) 9).addr = true ∧
    dataParityGood 9 (spoiled (paramAddr 5) 9).data = false :=
  ⟨rfl, performs_of (by decide +kernel), rfl, rfl, rfl, by decide +kernel, by decide +kernel⟩

theorem witness_SettingsHoldsHoldLimit :
    (withUnit demoUnit).GoodWrite .a settingsAddr 0xFFF (good settingsAddr 0xFFF) ∧
    dataParityGood 0xFFF (spoiled settingsAddr 0xFFF).data = false ∧
    addrParityGood settingsAddr true (spoiled settingsAddr 0xFFF).addr = true ∧
    (withUnit demoUnit).PerformedRead .a settingsAddr (readPar settingsAddr) :=
  ⟨goodWrite_of demo_performs (by decide +kernel), by decide +kernel, by decide +kernel, demo_performs, by decide +kernel⟩

theorem witness_StatusAndEnableWrites :
    let s := withUnit demoUnit
    s.GoodWrite .a statusSetAddr 0x3F (good statusSetAddr 0x3F) ∧ s.GoodWrite .a statusClearAddr 0x3F (good statusClearAddr 0x3F) ∧
    s.GoodWrite .a enableSetAddr 0x3F (good enableSetAddr 0x3F) ∧ s.GoodWrite .a enableClearAddr 0x3F (good enableClearAddr 0x3F) ∧
    dataParityGood 0x3F (spoiled statusSetAddr 0x3F).data = false ∧ s.GoodWrite .a 5 0x3F (good 5 0x3F) ∧
    s.PerformedRead .a 5 (readPar 5) ∧ 4 * (5 : WordAddr).toNat = 0x14 :=
  ⟨goodWrite_of demo_performs (by decide +kernel), goodWrite_of demo_performs (by decide +kernel),
    goodWrite_of demo_performs (by decide +kernel), goodWrite_of demo_performs (by decide +kernel), by decide +kernel,
    goodWrite_of demo_performs (by decide +kernel), ⟨demo_performs, by decide +kernel⟩, rfl⟩

theorem witness_NoticeReadPops :
    let n : Notice := { kind := .done, tag := 42, result := some ⟨.checksum, 3, some true⟩ }
    let s := withUnit { demoUnit with notices := [n] }
    s.PerformedRead .a noticeAddr (readPar noticeAddr) ∧ (s.port .a).notices = [n] ∧
    ((withUnit demoUnit).port .a).notices = [] ∧ ¬ s.PerformedRead .a noticeAddr (!readPar noticeAddr) ∧
    s.GoodWrite .a noticeAddr 1 (good noticeAddr 1) :=
  have h := performs_of (by decide +kernel)
  ⟨⟨h, by decide +kernel⟩, rfl, rfl, fun h => absurd h.addr (by decide +kernel), goodWrite_of h (by decide +kernel)⟩

/-- Below the output length of 48 bytes, at it, and with no mapping. -/
theorem witness_WindowReadServesOutput :
    delivering.PerformedRead .a (windowAddr 11) (readPar (windowAddr 11)) ∧
    delivering.PerformedRead .a (windowAddr 12) (readPar (windowAddr 12)) ∧
    (delivering.port .a).window = some 5 ∧ (delivering.findJob .a 5).isSome = true ∧
    4 * (11 : BitVec 12).toNat < hardBytes 40 + softBytes 40 true ∧
    hardBytes 40 + softBytes 40 true ≤ 4 * (12 : BitVec 12).toNat ∧ ((withUnit demoUnit).port .a).window = none ∧
    ([0] : List Page)[1023 / 1024]? = some 0 :=
  have h : delivering.Performs .a := performs_of (by decide +kernel)
  ⟨⟨h, by decide +kernel⟩, ⟨h, by decide +kernel⟩, by decide +kernel⟩

theorem witness_StrayAccessesOnlyMark :
    asWrite (.strayWrite .a 0 1 (good 0 1)) = some (.a, 0, 1, good 0 1) ∧ writeTarget 0 = .stray ∧
    (withUnit demoUnit).GoodWrite .a 0 1 (good 0 1) ∧ asRead (.strayRead .a 3 (readPar 3)) = some (.a, 3, readPar 3) ∧
    readTarget 3 = .stray ∧ (withUnit demoUnit).PerformedRead .a 3 (readPar 3) :=
  ⟨rfl, by decide +kernel, goodWrite_of demo_performs (by decide +kernel), rfl, by decide +kernel, demo_performs,
    by decide +kernel⟩

/-- The first and the last of the words: IDENT and RESP3. -/
theorem witness_PlainReadsReturnWords :
    (withUnit demoUnit).PerformedRead .a 0 (readPar 0) ∧ (withUnit demoUnit).PerformedRead .a 31 (readPar 31) ∧
    4 * (31 : WordAddr).toNat = 0x7C :=
  ⟨⟨demo_performs, by decide +kernel⟩, ⟨demo_performs, by decide +kernel⟩, rfl⟩

theorem witness_IdentFields : Profile.twoPort.enables .b = true := rfl

/-- Each refusal of Table 3-2 has a state that gives it. -/
theorem witness_OpenRefusedByFirstCheck :
    let r := openRecord demoWords
    let s := withUnit demoUnit
    s.PassesPort .a 0 1 (cmd 1) ∧ openOrder.find? ((staging fullChecker).openFails .a r) = some .stagingBusy ∧
    openOrder.find? ((withUnit PortUnit.reset).openFails .a (openRecord PortUnit.reset.param)) = some .param ∧
    openOrder.find? (queued.openFails .a r) = some .dupTag ∧
    openOrder.find? ({ s with profile := .twoPort }.openFails .c r) = some .quotaEntries ∧
    openOrder.find? ({ s with jobs := [{ demoJob (.staging []) with tag := 6, output := List.replicate 63 0 }] }.openFails
      .a r) = some .quotaPages ∧
    openOrder.find? ({ s with jobs := List.replicate 32 { demoJob (.staging []) with owner := .b } }.openFails .a r) =
      some .noEntry ∧
    openOrder.find? ({ s with free := [7] }.openFails .a r) = some .noSpace :=
  ⟨passesPort_of demo_performs (by decide +kernel) rfl, by decide +kernel⟩

/-- An OPEN that fills the page ceiling exactly, and one that takes the last two free pages. -/
theorem witness_OpenCreatesStagingJob :
    let r := openRecord demoWords
    let s := withUnit demoUnit
    s.PassesPort .a 0 1 (cmd 1) ∧ openOrder.find? (s.openFails .a r) = none ∧
    openOrder.find? ({ s with jobs := [{ demoJob (.staging []) with tag := 6, output := List.replicate 62 0 }] }.openFails
      .a r) = none ∧
    openOrder.find? ({ s with free := [7, 8] }.openFails .a r) = none :=
  ⟨passesPort_of demo_performs (by decide +kernel) rfl, by decide +kernel⟩

theorem witness_OpenedPagesReadZero :
    let s := withUnit demoUnit
    s.PassesPort .a 0 1 (cmd 1) ∧ openOrder.find? (s.openFails .a (openRecord (s.port .a).param)) = none ∧
    exec (.openJob .a 0 (cmd 1)) s = .next (run (.openJob .a 0 (cmd 1)) s) :=
  ⟨passesPort_of demo_performs (by decide +kernel) rfl, by decide +kernel, rfl⟩

/-- The range at K = 40 and at K = 8192 (Table 0-1). -/
theorem witness_PageCountsOfConventions :
    inputPages 40 true + outputPages 40 false = 2 ∧ inputPages 8192 false = 41 ∧ outputPages 8192 true = 9 ∧
    softWords 8192 = 2049 ∧ permWords 8192 false = 4096 ∧ hardBytes 8192 = 1024 := by decide +kernel

theorem witness_UnknownTagAnsweredNoJob :
    let s := { queued with ports := { queued.ports with b := demoUnit } }
    s.PassesPort .b 0 2 (cmd 2) ∧ s.PassesPort .b 0 6 (cmd 6) ∧ ∀ j ∈ s.jobs, ¬ (j.owner = .b ∧ j.tag = 5) :=
  have h := performs_of (by decide +kernel)
  ⟨passesPort_of h (by decide +kernel) rfl, passesPort_of h (by decide +kernel) rfl, by decide +kernel⟩

theorem staging_passes (c : Checker) (code : BitVec 8)
    (h : (addrParityGood cmdAddr true (cmd code).addr && dataParityGood (cmdWord 0 code) (cmd code).data) = true) :
    (staging c).PassesPort .a 0 code (cmd code) := passesPort_of (performs_of rfl) h rfl

/-- Not STAGING, and each test of Table 4-1. -/
theorem witness_TriggerRefusedByFirstTest :
    queued.PassesPort .a 0 2 (cmd 2) ∧ queued.findJob .a 5 = some (demoJob (.queued 3 [0])) ∧
    (staging fullChecker).PassesPort .a 0 2 (cmd 2) ∧
    (staging fullChecker).findJob .a 5 = some (demoJob (.staging [0])) ∧
    triggerOrder.find? { fullChecker with parityFault := true, overflow := true }.triggerFails = some .parityFault ∧
    triggerOrder.find? { fullChecker with permFault := true, overflow := true }.triggerFails = some .permBad ∧
    triggerOrder.find? { fullChecker with overflow := true, received := ⟨0, 0, 0, 0⟩ }.triggerFails = some .over ∧
    triggerOrder.find? { fullChecker with received := ⟨11, 11, 11, 19⟩ }.triggerFails = some .short :=
  ⟨passesPort_of (performs_of rfl) (by decide +kernel) rfl, by decide +kernel,
    staging_passes _ _ (by decide +kernel), by decide +kernel⟩

theorem witness_TriggerQueuesJob :
    (staging fullChecker).PassesPort .a 0 2 (cmd 2) ∧ (staging fullChecker).IdsDistinct ∧
    (staging fullChecker).findJob .a 5 = some (demoJob (.staging [0])) ∧ triggerOrder.find? fullChecker.triggerFails = none :=
  ⟨staging_passes _ _ (by decide +kernel), idsDistinct_of (by decide +kernel), by decide +kernel⟩

/-- A job on no engine, a DECODING one, an ABORTING one, and none. -/
theorem witness_AbortAnswersByState :
    (staging fullChecker).PassesPort .a 0 3 (cmd 3) ∧ (staging fullChecker).IdsDistinct ∧
    (demoJob (.staging [0])).onEngine = false ∧
    (decoding (engineIn .pass1 1)).PassesPort .a 0 3 (cmd 3) ∧ (decoding (engineIn .pass1 1)).IdsDistinct ∧
    (decoding (engineIn .pass1 1)).findJob .a 5 = some (demoJob (.decoding 3 [0] .zero)) ∧
    (aborting (engineIn .pass1 1)).PassesPort .a 0 3 (cmd 3) ∧ (aborting (engineIn .pass1 1)).IdsDistinct ∧
    ((aborting (engineIn .pass1 1)).findJob .a 5).map (·.phase) = some (.aborting 3 [0] .zero) ∧
    (withUnit demoUnit).findJob .a 5 = none :=
  ⟨staging_passes _ _ (by decide +kernel), idsDistinct_of (by decide +kernel), rfl,
    passesPort_of (performs_of rfl) (by decide +kernel) rfl, idsDistinct_of (by decide +kernel), by decide +kernel,
    passesPort_of (performs_of rfl) (by decide +kernel) rfl, idsDistinct_of (by decide +kernel), by decide +kernel⟩

theorem witness_FreeingLowersCounts :
    (staging fullChecker).IdsDistinct ∧ (staging fullChecker).findJob .a 5 = some (demoJob (.staging [0])) ∧
    exec (.abort .a 0 (cmd 3)) (staging fullChecker) = .next (run (.abort .a 0 (cmd 3)) (staging fullChecker)) ∧
    (staging fullChecker).PassesPort .a 0 3 (cmd 3) ∧ delivering.IdsDistinct ∧ delivering.PassesPort .a 0 5 (cmd 5) ∧
    (delivering.findJob .a 5).map (·.outcome.isSome) = some true ∧
    exec (.release .a 0 (cmd 5)) delivering = .next (run (.release .a 0 (cmd 5)) delivering) :=
  ⟨idsDistinct_of (by decide +kernel), by decide +kernel, rfl, staging_passes _ _ (by decide +kernel),
    idsDistinct_of (by decide +kernel), passesPort_of (performs_of rfl) (by decide +kernel) rfl, by decide +kernel, rfl⟩

/-- HELD with the window free and taken, DELIVERING, QUEUED, STAGING. -/
theorem witness_CollectAnswersByState :
    (held none).PassesPort .a 0 4 (cmd 4) ∧ (held none).IdsDistinct ∧ ((held none).port .a).window = none ∧
    ((held none).findJob .a 5).map (·.phase) = some (.held outcome none false) ∧
    ((demo (demoJob (.held outcome none false)) { demoUnit with window := some 9 }).port .a).window = some 9 ∧
    delivering.PassesPort .a 0 4 (cmd 4) ∧ (delivering.findJob .a 5).map (·.phase) = some (.delivering outcome) ∧
    (demoJob (.queued 3 [0])).isQueued = true ∧ (demoJob (.staging [0])).isStaging = true :=
  ⟨passesPort_of (performs_of rfl) (by decide +kernel) rfl, idsDistinct_of (by decide +kernel), rfl, by decide +kernel, rfl,
    passesPort_of (performs_of rfl) (by decide +kernel) rfl, by decide +kernel⟩

theorem witness_ReleaseAnswersByState :
    delivering.PassesPort .a 0 5 (cmd 5) ∧ (delivering.findJob .a 5).map (·.outcome.isSome) = some true ∧
    queued.PassesPort .a 0 5 (cmd 5) ∧ (queued.findJob .a 5).map (·.outcome) = some none ∧
    (withUnit demoUnit).findJob .a 5 = none :=
  ⟨passesPort_of (performs_of rfl) (by decide +kernel) rfl, by decide +kernel,
    passesPort_of (performs_of rfl) (by decide +kernel) rfl, by decide +kernel⟩

/-- A job in each of the six states, and none. -/
theorem witness_QueryChangesOnlyResponse :
    (∀ s ∈ [staging { fullChecker with permFault := true, firstBad := some ⟨4095, .high⟩ }, queued,
      decoding (engineIn .pass1 1), aborting (engineIn .pass1 1), held none, delivering], s.PassesPort .a 0 6 (cmd 6)) ∧
    [staging fullChecker, queued, decoding (engineIn .pass1 1), aborting (engineIn .pass1 1), held none, delivering].map
      (fun s => (s.findJob .a 5).map (·.phase)) = [some (.staging [0]), some (.queued 3 [0]),
        some (.decoding 3 [0] .zero), some (.aborting 3 [0] .zero), some (.held outcome none false),
        some (.delivering outcome)] ∧
    (withUnit demoUnit).findJob .a 5 = none := by
  refine ⟨?_, by decide +kernel⟩
  simp only [List.forall_mem_cons, List.not_mem_nil, false_imp_iff, implies_true, and_true]
  exact ⟨passesPort_of (performs_of rfl) (by decide +kernel) rfl, passesPort_of (performs_of rfl) (by decide +kernel) rfl,
    passesPort_of (performs_of rfl) (by decide +kernel) rfl, passesPort_of (performs_of rfl) (by decide +kernel) rfl,
    passesPort_of (performs_of rfl) (by decide +kernel) rfl, passesPort_of (performs_of rfl) (by decide +kernel) rfl⟩

/-- The largest values of each field. -/
theorem witness_WordLayouts :
    (15 ≤ 15 ∧ (some 40).getD 0 ≤ 40) ∧ (demoJob (.staging [0])).phase = .staging [0] ∧
    (resp0 .badCommand 255 4095).toNat = 19 + 2 ^ 8 * 255 + 2 ^ 16 * 4095 := by decide +kernel

theorem witness_PortResetCommandResets :
    (staging fullChecker).PassesPort .a 0 7 (cmd 7) ∧ (staging fullChecker).IdsDistinct :=
  ⟨staging_passes _ _ (by decide +kernel), idsDistinct_of (by decide +kernel)⟩

theorem witness_ResetLineHoldsPort : (staging fullChecker).IdsDistinct := idsDistinct_of (by decide +kernel)

/-- Lines 1 to 3 of Table 3-6, with good and with bad parity. -/
theorem witness_StreamWordDiscarded :
    let a := apertureAddr .perm 1023
    (withUnit demoUnit).Performs .a ∧ addrParityGood a true (good a 7).addr = true ∧ dataParityGood 7 (good a 7).data = true ∧
    dataParityGood 7 (spoiled a 7).data = false ∧ ((withUnit demoUnit).port .a).slot = none ∧
    ((staging fullChecker).port .a).slot.isSome = true ∧ fullChecker.received.get .perm = fullChecker.expected.get .perm :=
  ⟨demo_performs, by decide +kernel⟩

/-- A last word that fires the auto-trigger, and one that does not. -/
theorem witness_StreamWordAccepted :
    let c := { fullChecker with autoTrigger := true, received := ⟨11, 11, 10, 20⟩ }
    (staging c).GoodWrite .a (apertureAddr .par2 0) 0 (good (apertureAddr .par2 0) 0) ∧ (staging c).mem.wf ∧
    (staging c).IdsDistinct ∧ ((staging c).port .a).slot = some 5 ∧
    (staging c).findJob .a 5 = some (demoJob (.staging [0])) ∧ c.received.get .par2 ≠ c.expected.get .par2 ∧
    (c.accept .par2 0).autoFires = true ∧ ({ c with overflow := true }.accept .par2 0).autoFires = false :=
  ⟨goodWrite_of (performs_of rfl) (by decide +kernel), by decide +kernel, idsDistinct_of (by decide +kernel), rfl,
    by decide +kernel⟩

theorem witness_SoftValuesSaturated :
    Stream.par2 ≠ .perm ∧ { fullChecker with clamp := 65535 }.clamp ≤ 65535 ∧ softValue 0x1F = 31 ∧ softValue 0x20 = 31 ∧
    softValue 0x7F = 31 ∧ softValue 0x80 = -31 ∧ softValue 0xE0 = -31 ∧ softValue 0xE1 = -31 := by decide +kernel

/-- A padding half, an index of K, a marked one, and K - 1 unmarked, at K = 41. -/
theorem witness_PermutationIndexesTested :
    let c := { fullChecker with k := 41, seen := 1 }
    let w : Word := 0x00000028
    c.k ≤ 2 * 20 + 1 ∧ 2 * 20 < c.k ∧ c.k ≤ (41 : Word).toNat % 65536 ∧ c.seen.getLsbD ((0 : Word).toNat % 65536) = true ∧
    w.toNat % 65536 < c.k ∧ c.seen.getLsbD (w.toNat % 65536) = false ∧ c.k ≤ 8192 := by decide +kernel

theorem witness_GrantBindsFirstJob :
    queued.deviceReset = false ∧ queued.IdsDistinct ∧ (queued.engine .zero).stage = .idle ∧
    [Port.a, .b, .c, .d] = [] ++ .a :: [.b, .c, .d] ∧ queued.queue .a = [5] ∧
    queued.findJob .a 5 = some (demoJob (.queued 3 [0])) ∧
    (∀ p, State.reset.queue p = []) ∧ { State.reset with deviceReset := true }.deviceReset = true ∧
    (∀ e, ({ queued with engines := ⟨engineIn .pass1 1, engineIn .pass2 1⟩ }.engine e).stage ≠ .idle) :=
  ⟨rfl, idsDistinct_of (by decide +kernel), rfl, rfl, rfl, by decide +kernel, fun p => by cases p <;> rfl, rfl,
    fun e => by cases e <;> decide⟩

/-- The grant of engine 1 while engine 0 works. -/
theorem witness_GrantBindsFirstJob_engine_1 :
    let s := { queued with engines := ⟨engineIn .pass1 1, Engine.reset⟩ }
    (s.engine .one).stage = .idle ∧ (s.engine .zero).stage ≠ .idle := by decide +kernel

theorem witness_GrantConsidersPointerLast :
    let s := { queued with pointer := .a }
    exec .grant s = .next (run .grant s) ∧ (run .grant s).engines ≠ s.engines ∧ (run .grant s).pointer = s.pointer :=
  ⟨rfl, by decide +kernel, by decide +kernel⟩

theorem working_of {s : State} {e : EngineId} {stage : Stage} {j : Job} {pr : Params}
    (h : s.deviceReset = false ∧ (s.engine e).stage = stage ∧ (s.engine e).bound = some ⟨j.owner, j.tag⟩ ∧
      s.findJob j.owner j.tag = some j ∧ j.engine = some e ∧ (s.engine e).params = some pr) : s.Working e stage j pr :=
  ⟨h.1, h.2.1, h.2.2.1, h.2.2.2.1, h.2.2.2.2.1, h.2.2.2.2.2⟩

/-- The parameters of a GENERATED job with f1 and f2. -/
def generatedParams (f1 f2 : Nat) : Params := { demoParams with permSource := .generated f1 f2 }

/-- A CLIENT permutation, a bijection, and one that repeats at 5 (Table 5-4). -/
theorem witness_EndOfPrimeLoadsPermutation :
    (decoding (engineIn .prime 0)).Working .zero .prime (demoJob (.decoding 3 [0] .zero)) demoParams ∧
    (decoding { engineIn .prime 0 with params := some (generatedParams 7 5) }).Working .zero .prime
      (demoJob (.decoding 3 [0] .zero)) (generatedParams 7 5) ∧
    demoParams.permSource = .client ∧
    ((List.range 40).map fun i => (7 * i + 10 * i ^ 2) % 40).Nodup ∧
    (7 * 0 + 5 * 0 ^ 2) % 40 = (7 * 5 + 5 * 5 ^ 2) % 40 ∧ ((List.range 5).map fun i => (7 * i + 5 * i ^ 2) % 40).Nodup :=
  ⟨working_of (by decide +kernel), working_of (by decide +kernel), by decide +kernel⟩

theorem witness_PassesReadAndWrite :
    (decoding (engineIn .pass1 1)).Working .zero .pass1 (demoJob (.decoding 3 [0] .zero)) demoParams ∧
    (decoding (engineIn .pass2 1)).Working .zero .pass2 (demoJob (.decoding 3 [0] .zero)) demoParams ∧
    (demoJob (.decoding 3 [0] .zero)).abortRequested = false :=
  ⟨working_of (by decide +kernel), working_of (by decide +kernel), rfl⟩

/-- A stop by the checksum at iteration 1, by the limit at 2, and no stop at 1. The quality stop asks for no more than its
threshold of 0. -/
theorem witness_EvaluateDecidesStop :
    (decoding (engineIn .evaluate 1)).Working .zero .evaluate (demoJob (.decoding 3 [0] .zero)) demoParams ∧
    (max demoParams.minIter 1 ≤ 1 ∧ demoParams.stopRule = .either ∧ demoParams.requiredMatches ≤ 1) ∧
    demoParams.qualityThreshold = 0 ∧ (2 = demoParams.maxIter) ∧ 1 ≠ demoParams.maxIter :=
  ⟨working_of (by decide +kernel), by decide +kernel⟩

theorem witness_ChecksumFormsAgree :
    checksumResult .c16 ([true] ++ (List.range 16).map fun i => (0x1021#16).getLsbD (15 - i)) = some true ∧
    checksumResult .c24 ([true] ++ (List.range 24).map fun i => (0x864CFB#24).getLsbD (23 - i)) = some true := by
  decide +kernel

def ended (reason : StopReason) (n : Nat) : PendingOutcome :=
  { stopReason := reason, iterationsDone := n, checksumOk := none, quality := none }

theorem witness_EndOfStoreCompletesJob :
    let s := decoding { engineIn .store 3 with pending := some (ended .maxReached 3) }
    s.Working .zero .store (demoJob (.decoding 3 [0] .zero)) demoParams ∧
    (s.engine .zero).pending = some (ended .maxReached 3) ∧ (demoJob (.decoding 3 [0] .zero)).abortRequested = false ∧
    s.IdsDistinct ∧ s.mem.wf ∧ (demoJob (.decoding 3 [0] .zero)).output.Nodup ∧
    (outputBytes demoParams (s.engine .zero).work).length ≤ 1024 * (demoJob (.decoding 3 [0] .zero)).output.length := by
  refine ⟨working_of (by decide +kernel), rfl, rfl, idsDistinct_of (by decide +kernel), by decide +kernel, by decide, ?_⟩
  simp only [outputBytes, List.length_append, List.length_map, List.length_range]
  decide +kernel

/-- Soft output with a padded soft region: K = 41. -/
theorem witness_OutputRegions : { demoParams with k := 41 }.softOutput = true ∧ 41 < 4 * ((41 + 3) / 4) := by decide +kernel

/-- A boundary in each of the four stages. -/
theorem witness_BoundaryReportsAbort :
    let j := { demoJob (.aborting 3 [0] .zero) with abortRequested := true }
    (aborting (engineIn .prime 0)).Working .zero .prime j demoParams ∧
    (aborting (engineIn .pass1 1)).Working .zero .pass1 j demoParams ∧
    (aborting (engineIn .pass2 1)).Working .zero .pass2 j demoParams ∧
    (aborting { engineIn .store 1 with pending := some (ended .maxReached 1) }).Working .zero .store j demoParams ∧
    (aborting (engineIn .prime 0)).mem.wf :=
  ⟨working_of (by decide +kernel), working_of (by decide +kernel), working_of (by decide +kernel),
    working_of (by decide +kernel), by decide +kernel⟩

/-- A held line, a queue of 16, a queue of 15. -/
theorem witness_NoticePushCases :
    let n : Notice := { kind := .aborted, tag := 1, result := none }
    ((withUnit { demoUnit with resetHeld := true }).port .a).resetHeld = true ∧
    16 ≤ ((withUnit { demoUnit with notices := List.replicate 16 n }).port .a).notices.length ∧
    ((withUnit { demoUnit with notices := List.replicate 15 n }).port .a).notices.length < 16 := by decide +kernel

theorem witness_TickCountsAndRaises :
    (held (some 9)).deviceReset = false ∧ { State.reset with deviceReset := true }.deviceReset = true := ⟨rfl, rfl⟩

/-- A deadline at the tick count, one raised before, and one not reached. -/
theorem witness_ExpiryFreesHeldJob :
    let s := { held (some 9) with tick := 9 }
    s.deviceReset = false ∧ (s.findJob .a 5).map (·.phase) = some (.held outcome (some 9) false) ∧ s.tick = 9 ∧
    ((run .tick (held (some 1))).findJob .a 5).map (·.phase) = some (.held outcome (some 1) true) ∧
    ((held (some 9)).findJob .a 5).map (·.phase) = some (.held outcome (some 9) false) ∧ (held (some 9)).tick ≠ 9 ∧
    s.findJob .a 6 = none := by decide +kernel

/-- A held acknowledgement of a CMD write that the reset replaces, and a state with the reset asserted. -/
theorem witness_DeviceResetValues :
    let s := withUnit { demoUnit with bus := .wrote true false }
    ((run (.deviceReset ⟨true, false, false, false⟩) s).port .a).bus = .wrote true true ∧
    ((run (.deviceReset ⟨false, false, false, false⟩) s).port .a).bus = .wrote true false ∧
    ((run .powerOn s).port .a).bus = .none ∧
    (run (.deviceReset ⟨false, false, false, false⟩) s).deviceReset = true := ⟨rfl, rfl, rfl, rfl⟩

theorem witness_StrapsSelectProfile :
    { State.reset with deviceReset := true }.deviceReset = true ∧
    exec (.deviceResetRelease true true) State.reset = .next (run (.deviceResetRelease true true) State.reset) := ⟨rfl, rfl⟩

/-! ### States that are sound, other than the state after reset -/

/-- Every state steps to a next state when a tick waits. -/
theorem tick_steps (s : State) (rest : List Instr) :
    step { s with pending := .tick :: rest } = .next ({ s with pending := rest }.tickOnce) := rfl

theorem witness_StepKeepsPagesConserved : (staging fullChecker).PagesConserved :=
  ⟨idsDistinct_of (by decide +kernel), by decide +kernel⟩

theorem witness_StepKeepsWithinCeilings : (staging fullChecker).WithinCeilings :=
  ⟨fun h => absurd h (by decide), by decide, fun p => by cases p <;> decide +kernel, fun p => by cases p <;> decide +kernel⟩

theorem witness_StepKeepsWithinCeilings_lists : (staging fullChecker).ListsSized := fun j hj => by
  rw [List.mem_singleton.mp (show j ∈ [demoJob (.staging [0])] from hj)]
  exact ⟨by decide +kernel, fun _ => by decide +kernel⟩

theorem witness_StepKeepsQueuesTied : queued.QueuesTied :=
  ⟨idsDistinct_of (by decide +kernel), fun p => by cases p <;> decide +kernel, fun p t => by
    show t ∈ queued.queue p ↔ ∃ j ∈ [demoJob (.queued 3 [0])], j.isFor p t = true ∧ j.isQueued = true
    cases p <;> simp [queued, State.queue, PerPort.get, demoJob, Job.isFor, Job.isQueued, eq_comm (a := t)]⟩

theorem witness_StepKeepsSlotsTied : (staging fullChecker).SlotsTied :=
  ⟨idsDistinct_of (by decide +kernel), fun p t => by
    cases p <;> simp [staging, demo, withUnit, demoJob, State.port, PerPort.get, Job.isFor, Job.isStaging, State.reset,
      PortUnit.reset]⟩

theorem witness_StepKeepsWindowsTied : delivering.WindowsTied :=
  ⟨idsDistinct_of (by decide +kernel), fun p t => by
    cases p <;> simp [delivering, demo, withUnit, demoJob, demoUnit, State.port, PerPort.get, Job.isFor, Job.isDelivering,
      State.reset, PortUnit.reset]⟩

theorem witness_StepKeepsBindingsTied : (decoding (engineIn .pass1 1)).BindingsTied :=
  ⟨idsDistinct_of (by decide +kernel), fun e => by cases e <;> decide +kernel, fun e p t => by
    cases e <;> cases p <;>
      simp [decoding, engineIn, demo, withUnit, demoJob, State.engine, PerEngine.get, Engine.reset, Job.isFor, Job.engine]⟩

theorem demoParams_legal : demoParams.Legal :=
  ⟨by decide +kernel, by decide +kernel, by decide +kernel, by decide +kernel, by decide +kernel, by
    intro f1 f2 h
    exact absurd h (by rw [show demoParams.permSource = .client by decide +kernel]; exact nofun)⟩

theorem witness_StepKeepsEnginesSound : (decoding (engineIn .pass1 1)).EnginesSound :=
  ⟨fun j hj => by
    rw [List.mem_singleton.mp (show j ∈ [demoJob (.decoding 3 [0] .zero)] from hj)]
    exact demoParams_legal, fun e => by
    cases e <;> simp [decoding, engineIn, demo, withUnit, State.engine, PerEngine.get, Engine.reset, Engine.Sound]
    decide +kernel⟩

theorem witness_StepKeepsEnginesSound_params : (decoding (engineIn .pass1 1)).ParamsCopied :=
  ⟨idsDistinct_of (by decide +kernel), fun e j hj _ he => by
    rw [List.mem_singleton.mp (show j ∈ [demoJob (.decoding 3 [0] .zero)] from hj)] at he ⊢
    cases e
    · rfl
    · exact absurd he (by decide)⟩

/-- A held port whose one job is ABORTING. -/
theorem witness_StepKeepsHeldPortsQuiet :
    (demo { demoJob (.aborting 3 [0] .zero) with abortRequested := true } { demoUnit with resetHeld := true }).HeldPortsQuiet := by
  refine ⟨⟨idsDistinct_of (by decide +kernel), by decide +kernel⟩, fun p hp => ?_⟩
  cases p
  · exact ⟨rfl, rfl, rfl, rfl, by decide +kernel⟩
  all_goals exact absurd hp (by decide)

/-- A queue of 16, counts at their ends, the clamp count at its end, a byte listed. -/
theorem witness_StepKeepsUnitBounds :
    let n : Notice := { kind := .aborted, tag := 1, result := none }
    (withUnit { demoUnit with notices := List.replicate 16 n }).NoticesBounded ∧ (staging fullChecker).CountsBounded ∧
    (staging { fullChecker with clamp := 65535 }).ClampBounded ∧ Memory.wf [(4, 0x5A)] := by
  refine ⟨fun p => ?_, fun p st => ?_, fun p => ?_, by decide⟩
  · cases p <;> decide +kernel
  · cases p <;> cases st <;> decide +kernel
  · cases p <;> decide +kernel

end Sys2Proof.Tests
end

section
/-! PROOF. Words as sums of their fields: each word that a QUERY answers with is a concatenation of fields, and its number is
the sum of the fields at their places (Tables 10-2, 10-8 and 10-9). -/

namespace Sys2Proof.Machine

theorem toNat_append_eq_add {v w : Nat} (x : BitVec v) (y : BitVec w) : (x ++ y).toNat = y.toNat + 2 ^ w * x.toNat := by
  rw [BitVec.toNat_append, ← Nat.shiftLeft_add_eq_or_of_lt y.isLt, Nat.shiftLeft_eq, Nat.mul_comm, Nat.add_comm]

@[simp] theorem toNat_bit (b : Bool) : (bit b).toNat = b.toNat := BitVec.toNat_ofBool b

/-- Option flags, lowest first (Table 10-2). -/
theorem Params.toNat_optionFlags (pr : Params) :
    pr.optionFlags.toNat = pr.softOutput.toNat + 2 * pr.reportQuality.toNat + 4 * pr.autoTrigger.toNat +
      8 * pr.permSource.isGenerated.toNat := by
  simp only [optionFlags, toNat_append_eq_add, toNat_bit]
  omega

/-- The outcome fields of Table 10-8, from bit 8 of RESP1 up. -/
theorem Outcome.toNat_fields (o : Outcome) :
    o.fields.toNat = o.stopReason.code.toNat + 2 ^ 4 * (o.iterationsDone % 2 ^ 4) + 2 ^ 8 * o.checksumOk.isSome.toNat +
      2 ^ 9 * (o.checksumOk.getD false).toNat + 2 ^ 12 * o.quality.isSome.toNat +
      2 ^ 16 * (o.quality.getD 0 % 2 ^ 6) := by
  simp only [fields, toNat_append_eq_add, toNat_bit, BitVec.toNat_ofNat]
  omega

theorem toNat_clampEngineWord (clamp : Nat) (engine : BitVec 1) :
    (clampEngineWord clamp engine).toNat = clamp % 2 ^ 16 + 2 ^ 16 * engine.toNat := by
  simp only [clampEngineWord, toNat_append_eq_add, BitVec.toNat_ofNat]
  omega

@[simp] theorem Half.toNat_code_low : Half.low.code.toNat = 0 := rfl
@[simp] theorem Half.toNat_code_high : Half.high.code.toNat = 1 := rfl

/-- The first bad position while the permutation-fault flag is set. -/
theorem Checker.toNat_firstBadField {c : Checker} {pos : BadPosition} (hf : c.permFault = true)
    (hb : c.firstBad = some pos) : c.firstBadField.toNat = pos.word % 2 ^ 12 + 2 ^ 12 * pos.half.code.toNat := by
  simp only [firstBadField, hf, hb, toNat_append_eq_add, BitVec.toNat_ofNat]

theorem Checker.firstBadField_of_noFault {c : Checker} (hf : c.permFault = false) : c.firstBadField = 0 := by
  simp only [firstBadField, hf]

theorem Checker.firstBadField_of_noPosition {c : Checker} (hb : c.firstBad = none) : c.firstBadField = 0 := by
  cases h : c.permFault <;> simp only [firstBadField, hb, h]

/-! ### RESP1 to RESP3 of QUERY, row by row of Table 10-9 -/

/-- RESP1 [7:0]: the state and the option flags. -/
def Params.queryHead (pr : Params) (state : BitVec 3) : BitVec 8 := pr.optionFlags ++ 0#1 ++ state

theorem Params.toNat_queryHead (pr : Params) (state : BitVec 3) :
    (pr.queryHead state).toNat = state.toNat + 2 ^ 4 * pr.optionFlags.toNat := by
  simp only [queryHead, toNat_append_eq_add, BitVec.toNat_ofNat]
  omega

/-- The words of a job without an outcome, after STAGING: bits [31:8] of RESP1 are 0. -/
def Params.queryWordsPending (pr : Params) (state : BitVec 3) (clamp : Nat) (engine : BitVec 1) : Word × Word × Word :=
  (0#24 ++ pr.queryHead state, clampEngineWord clamp engine, 0)

/-- The words of a job with an outcome. -/
def Params.queryWordsDone (pr : Params) (state : BitVec 3) (o : Outcome) : Word × Word × Word :=
  (o.fields ++ pr.queryHead state, clampEngineWord o.clampCount o.engine.code, 0)

section rows
variable {j : Job} (c : Checker) {clamp : Nat} {input : List Page} {e : EngineId} {o : Outcome} {d : Option Tick}
  {raised : Bool}

theorem queryWords_staging (h : j.phase = .staging input) :
    queryWords j c = stagingWords j.params (.staging input) c := by simp only [queryWords, h]

theorem queryWords_queued (h : j.phase = .queued clamp input) :
    queryWords j c = j.params.queryWordsPending 2 clamp 0 := by simp only [queryWords, h]; rfl

theorem queryWords_decoding (h : j.phase = .decoding clamp input e) :
    queryWords j c = j.params.queryWordsPending 3 clamp e.code := by simp only [queryWords, h]; rfl

theorem queryWords_aborting (h : j.phase = .aborting clamp input e) :
    queryWords j c = j.params.queryWordsPending 4 clamp e.code := by simp only [queryWords, h]; rfl

theorem queryWords_held (h : j.phase = .held o d raised) :
    queryWords j c = j.params.queryWordsDone 5 o := by simp only [queryWords, h]; rfl

theorem queryWords_delivering (h : j.phase = .delivering o) :
    queryWords j c = j.params.queryWordsDone 6 o := by simp only [queryWords, h]; rfl

end rows

theorem toNat_queryWordsPending_resp1 (pr : Params) (state : BitVec 3) (clamp : Nat) (engine : BitVec 1) :
    (pr.queryWordsPending state clamp engine).1.toNat = state.toNat + 2 ^ 4 * pr.optionFlags.toNat := by
  simp only [Params.queryWordsPending, toNat_append_eq_add, Params.toNat_queryHead, BitVec.toNat_ofNat]
  omega

theorem toNat_queryWordsDone_resp1 (pr : Params) (state : BitVec 3) (o : Outcome) :
    (pr.queryWordsDone state o).1.toNat = state.toNat + 2 ^ 4 * pr.optionFlags.toNat + 2 ^ 8 * o.fields.toNat := by
  simp only [Params.queryWordsDone, toNat_append_eq_add, Params.toNat_queryHead]

section staging
variable (pr : Params) (ph : JobPhase) (c : Checker)

theorem toNat_stagingWords_resp1 :
    (stagingWords pr ph c).1.toNat = ph.code.toNat + 2 ^ 4 * pr.optionFlags.toNat +
      2 ^ 8 * (c.received.sys % 2 ^ 12) + 2 ^ 20 * (c.received.par1 % 2 ^ 12) := by
  simp only [stagingWords, toNat_append_eq_add, BitVec.toNat_ofNat]
  omega

theorem toNat_stagingWords_resp2 :
    (stagingWords pr ph c).2.1.toNat = c.clamp % 2 ^ 16 + 2 ^ 16 * (c.received.perm % 2 ^ 13) +
      2 ^ 29 * c.parityFault.toNat + 2 ^ 30 * c.permFault.toNat + 2 ^ 31 * c.overflow.toNat := by
  simp only [stagingWords, toNat_append_eq_add, toNat_bit, BitVec.toNat_ofNat]
  omega

theorem toNat_stagingWords_resp3 :
    (stagingWords pr ph c).2.2.toNat = c.received.par2 % 2 ^ 12 + 2 ^ 16 * c.firstBadField.toNat := by
  simp only [stagingWords, toNat_append_eq_add, BitVec.toNat_ofNat]
  omega

end staging

end Sys2Proof.Machine
end

section
/-! PROOF. A command that passes the port unit's tests is taken at the job table and acknowledged, and one that only answers
leaves the state of `told`. -/

namespace Sys2Proof.Machine.State

theorem modPort_modPort (s : State) (p : Port) (f g : PortUnit → PortUnit) :
    (s.modPort p f).modPort p g = s.modPort p fun u => g (f u) := by
  cases p <;> rfl

/-- A response followed by the normal acknowledgement. -/
theorem answer_respond (s : State) (p : Port) (code : RespCode) (cmd : BitVec 8) (tag : Tag) (r1 r2 r3 : Word) :
    (s.respond p code cmd tag r1 r2 r3).answer p (.wrote true false) = s.told p code cmd tag r1 r2 r3 := by
  rw [respond_eq, answer_eq, modPort_modPort]
  rfl

theorem Performs.portClosed_eq_false {s : State} {p : Port} (h : s.Performs p) : s.portClosed p = false :=
  (s.portClosed_false_iff p).2 ⟨h.released, h.enabled, h.line⟩

/-- The job table takes a CMD write that passes the port unit (R164, R165). -/
theorem PassesPort.writeAccess_eq {s : State} {p : Port} {reserved : BitVec 24} {code : BitVec 8} {bus : WriteParity}
    (h : s.PassesPort p reserved code bus) :
    s.writeAccess p cmdAddr (cmdWord reserved code) bus = (s.takeCommand p code).answer p (.wrote true false) :=
  writeAccess_command h.write.performs.portClosed_eq_false h.taint reserved code h.write.addr h.write.data

/-! ### QUERY (R19, R20) -/

theorem jobQuery_of_findJob_none {s : State} {p : Port} (h : s.findJob p (s.namedTag p) = none) :
    s.jobQuery p = s.respond p .noJob codeQuery (s.namedTag p) 0 0 0 := by
  simp only [jobQuery, h]

theorem jobQuery_of_findJob_some {s : State} {p : Port} {j : Job} (h : s.findJob p (s.namedTag p) = some j) :
    s.jobQuery p = s.respond p .ok codeQuery (s.namedTag p) (queryWords j (s.port p).checker).1
      (queryWords j (s.port p).checker).2.1 (queryWords j (s.port p).checker).2.2 := by
  simp only [jobQuery, h]

section exec
variable {s : State} {p : Port} {reserved : BitVec 24} {bus : WriteParity} (h : s.PassesPort p reserved 6 bus)
include h

theorem exec_query : exec (.query p reserved bus) s = .next ((s.jobQuery p).answer p (.wrote true false)) :=
  congrArg Host.Outcome.next h.writeAccess_eq

theorem exec_query_noJob (hj : s.findJob p (s.namedTag p) = none) :
    exec (.query p reserved bus) s = .next (s.told p .noJob codeQuery (s.namedTag p) 0 0 0) := by
  rw [exec_query h, jobQuery_of_findJob_none hj, answer_respond]

theorem exec_query_found {j : Job} (hj : s.findJob p (s.namedTag p) = some j) :
    exec (.query p reserved bus) s = .next (s.told p .ok codeQuery (s.namedTag p)
      (queryWords j (s.port p).checker).1 (queryWords j (s.port p).checker).2.1
      (queryWords j (s.port p).checker).2.2) := by
  rw [exec_query h, jobQuery_of_findJob_some hj, answer_respond]

end exec

end Sys2Proof.Machine.State

namespace Sys2Proof.Machine

/-- Settles O29: the response is the model's `queryWords`, and each row of Table 10-9 is read off as a sum of fields. -/
theorem queryChangesOnlyResponse : Obligations.QueryChangesOnlyResponse := by
  intro s p reserved bus hpass tag
  refine ⟨State.exec_query_noJob hpass, fun j hj => ?_⟩
  extract_lets c options engine decode result
  refine ⟨_, _, _, State.exec_query_found hpass hj, ?_⟩
  -- The statement's own abbreviations, as the fields that the words concatenate.
  have hoptions : options = 2 ^ 4 * j.params.optionFlags.toNat := by
    rw [Params.toNat_optionFlags]
    simp only [options]
    omega
  have hengine (e : EngineId) : e.code.toNat = engine e := by cases e <;> rfl
  have hdecode (state : BitVec 3) (clamp : Nat) (e : EngineId) : let w := j.params.queryWordsPending state clamp e.code
      decode state.toNat clamp e w.1 w.2.1 w.2.2 := by
    refine ⟨?_, ?_, rfl⟩
    · rw [toNat_queryWordsPending_resp1, hoptions]
    · exact (toNat_clampEngineWord ..).trans (by rw [hengine])
  have hresult (state : BitVec 3) (o : Outcome) : let w := j.params.queryWordsDone state o
      result state.toNat o w.1 w.2.1 w.2.2 := by
    refine ⟨?_, ?_, rfl⟩
    · rw [toNat_queryWordsDone_resp1, Outcome.toNat_fields, hoptions]
      cases o.stopReason <;> simp only [StopReason.code, BitVec.ofNat_eq_ofNat, BitVec.toNat_ofNat] <;> omega
    · exact (toNat_clampEngineWord ..).trans (by rw [hengine])
  split
  next input hph =>
    rw [queryWords_staging _ hph]
    refine ⟨?_, toNat_stagingWords_resp2 .., ?_⟩
    · rw [toNat_stagingWords_resp1, hoptions]
      rfl
    · rw [toNat_stagingWords_resp3]
      congr 1
      cases hf : c.permFault with
      | false => rw [Checker.firstBadField_of_noFault hf]; rfl
      | true =>
        cases hb : c.firstBad with
        | none => rw [Checker.firstBadField_of_noPosition hb]; rfl
        | some pos =>
          rw [Checker.toNat_firstBadField hf hb]
          obtain ⟨word, _ | _⟩ := pos <;> simp only [Half.toNat_code_low, Half.toNat_code_high] <;> omega
  next clamp _ hph => rw [queryWords_queued _ hph]; exact hdecode 2 clamp .zero
  next clamp _ e hph => rw [queryWords_decoding _ hph]; exact hdecode 3 clamp e
  next clamp _ e hph => rw [queryWords_aborting _ hph]; exact hdecode 4 clamp e
  next o _ _ hph => rw [queryWords_held _ hph]; exact hresult 5 o
  next o hph => rw [queryWords_delivering _ hph]; exact hresult 6 o

end Sys2Proof.Machine
end

section
/-! PROOF. The job table and the free list as one stock of pages: the updates that move no page, the three that move
pages (a job opened, a job freed, a job's input returned at completion), and every event as some of these (R24). -/

namespace Sys2Proof.Machine

/-! ### Records: identity and pages -/

theorem Job.isFor_iff_id (j : Job) (p : Port) (t : Tag) : j.isFor p t = true ↔ j.id = ⟨p, t⟩ := by
  simp [Job.isFor_iff, Job.id]

/-- A change of a record that leaves its identity and both page lists. -/
def Job.KeptBy (j : Job) (f : Job → Job) : Prop := (f j).id = j.id ∧ (f j).pages = j.pages

theorem Job.keptBy_queued (j : Job) (clamp : Nat) : j.KeptBy (·.queued clamp) := by
  obtain ⟨_, _, _, _, _, phase⟩ := j
  cases phase <;> exact ⟨rfl, rfl⟩

theorem Job.keptBy_granted (j : Job) (e : EngineId) : j.KeptBy (·.granted e) := by
  obtain ⟨_, _, _, _, _, phase⟩ := j
  cases phase <;> exact ⟨rfl, rfl⟩

theorem Job.keptBy_toAborting (j : Job) : j.KeptBy (·.toAborting) := by
  obtain ⟨_, _, _, _, _, phase⟩ := j
  cases phase <;> exact ⟨rfl, rfl⟩

theorem Job.keptBy_raiseExpiry (j : Job) (now : Tick) : j.KeptBy (·.raiseExpiry now) := by
  obtain ⟨howner, htag, hpages, -⟩ := State.raiseExpiry_keeps now j
  exact ⟨by simp only [Job.id, howner, htag], hpages⟩

theorem Job.keptBy_ite {j : Job} {f : Job → Job} (h : j.KeptBy f) (c : Job → Prop) [DecidablePred c] :
    j.KeptBy fun k => if c k then f k else k := by
  simp only [Job.KeptBy]
  split
  · exact h
  · exact ⟨rfl, rfl⟩

namespace State

/-! ### Distinct identities single out one record -/

theorem IdsDistinct.eq_of_id {s : State} (h : s.IdsDistinct) {j k : Job} (hj : j ∈ s.jobs) (hk : k ∈ s.jobs)
    (hid : j.id = k.id) : j = k :=
  List.inj_on_of_nodup_map h hj hk hid

/-- The table is a live job and the records of the other identities. -/
theorem IdsDistinct.jobs_perm {s : State} (h : s.IdsDistinct) {j : Job} (hj : j ∈ s.jobs) :
    s.jobs.Perm (j :: s.jobs.filter fun k => !k.isFor j.owner j.tag) := by
  have hrest : s.jobs.erase j = s.jobs.filter fun k => !k.isFor j.owner j.tag := by
    rw [(List.Nodup.of_map _ h).erase_eq_filter]
    refine List.filter_congr fun k hk => ?_
    have : k = j ↔ k.isFor j.owner j.tag = true := by
      rw [Job.isFor_iff_id]
      exact ⟨fun e => e ▸ rfl, h.eq_of_id hk hj⟩
    grind
  exact hrest ▸ List.perm_cons_erase hj

/-- A change of a live job's record leaves the records of the other identities. -/
theorem IdsDistinct.modJob_jobs_perm {s : State} (h : s.IdsDistinct) {j : Job} (hj : j ∈ s.jobs) (f : Job → Job) :
    (s.modJob j.owner j.tag f).jobs.Perm (f j :: s.jobs.filter fun k => !k.isFor j.owner j.tag) := by
  have hself : j.isFor j.owner j.tag = true := (j.isFor_iff _ _).2 ⟨rfl, rfl⟩
  have hothers : (s.jobs.filter fun k => !k.isFor j.owner j.tag).map
      (fun k => if k.isFor j.owner j.tag then f k else k) = s.jobs.filter fun k => !k.isFor j.owner j.tag :=
    (List.map_congr_left fun k hk => by
      rw [if_neg (by simpa using (List.mem_filter.1 hk).2), id]).trans (List.map_id _)
  simpa only [modJob_jobs, List.map_cons, hself, if_true, hothers] using
    (h.jobs_perm hj).map fun k => if k.isFor j.owner j.tag then f k else k

/-! ### What the events take from the job table -/

theorem returnPages_nil (s : State) : s.returnPages [] = s := by rw [returnPages, List.append_nil]

/-- An accepted OPEN has passed the check on its tag (Table 3-2). -/
theorem findJob_none_of_openAnswer_accept {s : State} {p : Port} {r : OpenRecord} (h : s.openAnswer p r = .accept) :
    s.findJob p r.tag = none := by
  unfold openAnswer at h
  split at h
  · cases h
  · split at h
    · cases h
    · split at h
      · cases h
      · next hdup => simpa using hdup

/-- The job of an engine that is in a stage is live. -/
theorem mem_jobs_of_inStage {s : State} {e : EngineId} {stage : Stage} {j : Job} {pr : Params}
    (h : s.inStage e stage = some (j, pr)) : j ∈ s.jobs := by
  obtain ⟨-, -, -, hfind, -, -⟩ := inStage_some h
  exact (findJob_some hfind).1

namespace PagesConserved

variable {s t : State}

open scoped List

/-! ### Updates that move no page -/

/-- The law reads the job table and the free list alone. -/
theorem congr (h : s.PagesConserved) (hjobs : t.jobs = s.jobs) (hfree : t.free = s.free) : t.PagesConserved :=
  ⟨by simpa only [IdsDistinct, hjobs] using h.ids, by simpa only [hjobs, hfree] using h.pages⟩

theorem modPort (h : s.PagesConserved) (p : Port) (f : PortUnit → PortUnit) : (s.modPort p f).PagesConserved :=
  h.congr rfl rfl

theorem modEngine (h : s.PagesConserved) (e : EngineId) (f : Engine → Engine) : (s.modEngine e f).PagesConserved :=
  h.congr rfl rfl

theorem modQueue (h : s.PagesConserved) (p : Port) (f : List Tag → List Tag) : (s.modQueue p f).PagesConserved :=
  h.congr rfl rfl

theorem respond (h : s.PagesConserved) (p : Port) (code : RespCode) (cmd : BitVec 8) (tag : Tag) (r1 r2 r3 : Word) :
    (s.respond p code cmd tag r1 r2 r3).PagesConserved :=
  h.modPort ..

theorem setStatus (h : s.PagesConserved) (p : Port) (b : StatusBit) : (s.setStatus p b).PagesConserved :=
  h.modPort ..

theorem pushNotice (h : s.PagesConserved) (p : Port) (n : Notice) : (s.pushNotice p n).PagesConserved :=
  h.modPort ..

theorem answer (h : s.PagesConserved) (p : Port) (ans : BusAnswer) : (s.answer p ans).PagesConserved :=
  h.modPort ..

theorem writeArea (h : s.PagesConserved) (pages : List Page) (o : Nat) (vs : List Byte) :
    (s.writeArea pages o vs).PagesConserved := by
  rw [writeArea_frame]
  exact h.congr rfl rfl

/-- Records changed in place, each keeping its identity and its pages. -/
theorem mapJobs (h : s.PagesConserved) {f : Job → Job} (hf : ∀ j ∈ s.jobs, j.KeptBy f)
    (hjobs : t.jobs = s.jobs.map f) (hfree : t.free = s.free) : t.PagesConserved := by
  have hids : t.jobs.map Job.id = s.jobs.map Job.id := by
    rw [hjobs, List.map_map]
    exact List.map_congr_left fun j hj => (hf j hj).1
  have hpages : t.jobs.flatMap Job.pages = s.jobs.flatMap Job.pages := by
    rw [hjobs, List.flatMap_map]
    exact List.flatMap_congr fun j hj => (hf j hj).2
  exact ⟨by simpa only [IdsDistinct, hids] using h.ids, by simpa only [hpages, hfree] using h.pages⟩

theorem modJob (h : s.PagesConserved) (p : Port) (tag : Tag) {f : Job → Job} (hf : ∀ j : Job, j.KeptBy f) :
    (s.modJob p tag f).PagesConserved :=
  h.mapJobs (fun j _ => Job.keptBy_ite (hf j) fun k => k.isFor p tag = true) rfl rfl

/-! ### Updates that move pages -/

/-- A live job's record gives up the pages `l`, which go to the free list. -/
theorem modJob_returnPages (h : s.PagesConserved) {j : Job} (hj : j ∈ s.jobs) {f : Job → Job} {l : List Page}
    (hid : ∀ k : Job, (f k).id = k.id) (hl : (l ++ (f j).pages).Perm j.pages) :
    ((s.returnPages l).modJob j.owner j.tag f).PagesConserved := by
  have hids : (((s.returnPages l).modJob j.owner j.tag f).jobs.map Job.id) = s.jobs.map Job.id := by
    rw [modJob_jobs, List.map_map]
    refine List.map_congr_left fun k _ => ?_
    simp only [Function.comp_apply]
    split
    · exact hid k
    · rfl
  refine ⟨by simpa only [IdsDistinct, hids] using h.ids, ?_⟩
  have hothers := h.ids.jobs_perm hj
  have hchanged := h.ids.modJob_jobs_perm hj f
  generalize (s.jobs.filter fun k => !k.isFor j.owner j.tag) = others at hothers hchanged
  calc (s.free ++ l) ++ (s.modJob j.owner j.tag f).jobs.flatMap Job.pages
    _ ~ (s.free ++ l) ++ ((f j).pages ++ others.flatMap Job.pages) := (hchanged.flatMap_right _).append_left _
    _ = s.free ++ ((l ++ (f j).pages) ++ others.flatMap Job.pages) := by simp only [List.append_assoc]
    _ ~ s.free ++ (j.pages ++ others.flatMap Job.pages) := (hl.append_right _).append_left _
    _ ~ s.free ++ s.jobs.flatMap Job.pages := (hothers.flatMap_right Job.pages).symm.append_left _
    _ ~ List.finRange 256 := h.pages

/-- A live job freed: all its pages go to the free list with its record (R15). -/
theorem freeJob (h : s.PagesConserved) {j : Job} (hj : j ∈ s.jobs) : (s.freeJob j).PagesConserved := by
  refine ⟨?_, ?_⟩
  · rw [IdsDistinct, freeJob_jobs]
    exact h.ids.sublist (List.filter_sublist.map _)
  · rw [freeJob_free, freeJob_jobs, List.append_assoc]
    exact (((h.ids.jobs_perm hj).flatMap_right Job.pages).symm.append_left s.free).trans h.pages

/-- Live jobs freed one after another: freeing one leaves the others live. -/
theorem foldl_freeJob (h : s.PagesConserved) {l : List Job} (hl : l.Nodup) (hlive : ∀ j ∈ l, j ∈ s.jobs) :
    (l.foldl State.freeJob s).PagesConserved := by
  induction l generalizing s with
  | nil => exact h
  | cons j l ih =>
    obtain ⟨hjl, hl⟩ := List.nodup_cons.1 hl
    have hj := hlive j (by simp)
    refine ih (h.freeJob hj) hl fun k hk => ?_
    have hk' := hlive k (by simp [hk])
    have hne : k.isFor j.owner j.tag = false := by
      refine Bool.eq_false_iff.2 fun he => hjl ?_
      exact h.ids.eq_of_id hk' hj ((k.isFor_iff_id _ _).1 he) ▸ hk
    rw [freeJob_jobs]
    exact List.mem_filter.2 ⟨hk', by simp [hne]⟩

/-- A job opened under a free identity: its two lists are the head of the free list (R11, R31). -/
theorem createJob (h : s.PagesConserved) {p : Port} {r : OpenRecord} (hfresh : s.findJob p r.tag = none) :
    (s.createJob p r).PagesConserved := by
  refine ⟨?_, ?_⟩
  · show ((s.jobs ++ [s.newJob p r]).map Job.id).Nodup
    rw [List.map_append, List.map_singleton, List.nodup_append_comm, List.singleton_append, List.nodup_cons]
    refine ⟨fun hmem => ?_, h.ids⟩
    obtain ⟨j, hj, hid⟩ := List.mem_map.1 hmem
    exact findJob_none.1 hfresh j hj ((j.isFor_iff p r.tag).1 ((j.isFor_iff_id p r.tag).2 hid))
  · have hcut : (s.newJob p r).pages ++ s.free.drop r.totalPages = s.free := by
      show (s.free.take r.inPages ++ (s.free.drop r.inPages).take r.outPages) ++ _ = _
      rw [OpenRecord.totalPages, ← List.drop_drop, List.append_assoc, List.take_append_drop, List.take_append_drop]
    show (s.free.drop r.totalPages ++ (s.jobs ++ [s.newJob p r]).flatMap Job.pages).Perm _
    rw [List.flatMap_append, List.flatMap_singleton]
    calc s.free.drop r.totalPages ++ (s.jobs.flatMap Job.pages ++ (s.newJob p r).pages)
      _ ~ (s.jobs.flatMap Job.pages ++ (s.newJob p r).pages) ++ s.free.drop r.totalPages := List.perm_append_comm
      _ = s.jobs.flatMap Job.pages ++ s.free := by rw [List.append_assoc, hcut]
      _ ~ s.free ++ s.jobs.flatMap Job.pages := List.perm_append_comm
      _ ~ List.finRange 256 := h.pages

/-! ### Staging -/

theorem triggerJob (h : s.PagesConserved) (p : Port) (tag : Tag) : (s.triggerJob p tag).PagesConserved := by
  unfold State.triggerJob
  split
  · split
    · exact ((h.modJob p tag fun j => j.keptBy_queued _).modPort p _).modQueue p _
    · exact h
  · exact h

theorem storeStreamWord (h : s.PagesConserved) (p : Port) (tag : Tag) (o : Nat) (w : Word) :
    (s.storeStreamWord p tag o w).PagesConserved := by
  unfold State.storeStreamWord
  split
  · exact h.writeArea ..
  · exact h

theorem acceptStreamWord (h : s.PagesConserved) (p : Port) (tag : Tag) (st : Stream) (w : Word) :
    (s.acceptStreamWord p tag st w).PagesConserved := by
  have hstored := (h.storeStreamWord p tag ((s.port p).checker.nextOffset st) w).modPort p
    fun u => { u with checker := u.checker.accept st w }
  unfold State.acceptStreamWord
  dsimp only
  split
  · exact hstored.triggerJob p tag
  · exact hstored

theorem streamWord (h : s.PagesConserved) (p : Port) (st : Stream) (w : Word) (good : Bool) :
    (s.streamWord p st w good).PagesConserved := by
  unfold State.streamWord
  split
  · dsimp only
    split
    · exact h.setStatus ..
    · exact (h.setStatus ..).setStatus ..
  · split_ifs
    · exact (h.modPort ..).setStatus ..
    · exact h.modPort ..
    · exact h.acceptStreamWord ..

/-! ### Commands -/

theorem jobOpen (h : s.PagesConserved) (p : Port) : (s.jobOpen p).PagesConserved := by
  unfold State.jobOpen
  dsimp only
  split
  · exact h.respond ..
  · next haccept => exact (h.createJob (findJob_none_of_openAnswer_accept haccept)).respond ..

theorem jobTrigger (h : s.PagesConserved) (p : Port) : (s.jobTrigger p).PagesConserved := by
  unfold State.jobTrigger triggerStaging
  dsimp only
  split
  · exact h.respond ..
  · split
    · split
      · exact h.respond ..
      · exact (h.triggerJob ..).respond ..
    all_goals exact h.respond ..

theorem jobAbort (h : s.PagesConserved) (p : Port) : (s.jobAbort p).PagesConserved := by
  unfold State.jobAbort
  dsimp only
  split
  · exact h.respond ..
  · next j hj =>
    have hfreed := h.freeJob (findJob_some hj).1
    split
    · exact (h.modJob p _ Job.keptBy_toAborting).respond ..
    · exact h.respond ..
    all_goals exact hfreed.respond ..

/-- COLLECT moves a HELD job to DELIVERING; neither state has an input list. -/
theorem deliver (h : s.PagesConserved) {p : Port} {tag : Tag} {j : Job} (hj : s.findJob p tag = some j)
    (hinput : j.inputPages = []) (o : Outcome) : (s.deliver p tag o).PagesConserved := by
  obtain ⟨hlive, rfl, rfl⟩ := findJob_some hj
  have hpages : j.pages = j.output := by rw [Job.pages, hinput, List.nil_append]
  have hphase := h.modJob_returnPages hlive (f := fun k => { k with phase := .delivering o }) (l := []) (fun _ => rfl)
    (.of_eq hpages.symm)
  rw [returnPages_nil] at hphase
  exact hphase.modPort ..

theorem jobCollect (h : s.PagesConserved) (p : Port) : (s.jobCollect p).PagesConserved := by
  unfold State.jobCollect
  dsimp only
  split
  · exact h.respond ..
  · next j hj =>
    split
    iterate 4 exact h.respond ..
    · next o _ _ hphase =>
      split
      · exact (h.deliver hj (by rw [Job.inputPages, hphase]) o).respond ..
      · exact h.respond ..
    · exact h.respond ..

theorem jobRelease (h : s.PagesConserved) (p : Port) : (s.jobRelease p).PagesConserved := by
  unfold State.jobRelease
  dsimp only
  split
  · exact h.respond ..
  · next j hj =>
    have hfreed := h.freeJob (findJob_some hj).1
    split
    iterate 2 exact hfreed.respond ..
    all_goals exact h.respond ..

theorem jobQuery (h : s.PagesConserved) (p : Port) : (s.jobQuery p).PagesConserved := by
  cases hj : s.findJob p (s.namedTag p) with
  | none => rw [jobQuery_of_findJob_none hj]; exact h.respond ..
  | some j => rw [jobQuery_of_findJob_some hj]; exact h.respond ..

/-! ### Port reset (R22, R127) -/

theorem resetJobs (h : s.PagesConserved) (p : Port) : (s.resetJobs p).PagesConserved := by
  have hperm : (s.resetFrees p).Perm ((s.jobsOf p).filter fun j => !j.onEngine) := perm_sortByTag _
  have hnodup : (s.resetFrees p).Nodup := hperm.nodup_iff.2 (((List.Nodup.of_map _ h.ids).filter _).filter _)
  have hfreed := h.foldl_freeJob hnodup fun j hj =>
    List.mem_of_mem_filter (List.mem_of_mem_filter (hperm.mem_iff.1 hj))
  exact hfreed.mapJobs (fun j _ => Job.keptBy_ite j.keptBy_toAborting fun k => k.owner = p) rfl rfl

theorem portReset (h : s.PagesConserved) (p : Port) : (s.portReset p).PagesConserved :=
  (h.resetJobs p).modPort ..

theorem jobPortReset (h : s.PagesConserved) (p : Port) : (s.jobPortReset p).PagesConserved :=
  (h.portReset p).respond ..

/-! ### Accesses -/

theorem takeCommand (h : s.PagesConserved) (p : Port) (code : BitVec 8) : (s.takeCommand p code).PagesConserved := by
  unfold State.takeCommand
  split_ifs
  · exact h.jobOpen p
  · exact h.jobTrigger p
  · exact h.jobAbort p
  · exact h.jobCollect p
  · exact h.jobRelease p
  · exact h.jobQuery p
  · exact h.jobPortReset p
  · exact h.respond ..

theorem refuseParity (h : s.PagesConserved) (p : Port) (code : BitVec 8) (good : Bool) :
    (s.refuseParity p code good).PagesConserved := by
  cases good
  · exact ((h.setStatus ..).modPort ..).respond ..
  · exact (h.modPort ..).respond ..

theorem commandWrite (h : s.PagesConserved) (p : Port) (w : Word) (good : Bool) :
    (s.commandWrite p w good).PagesConserved := by
  unfold State.commandWrite
  dsimp only
  split
  · exact h.refuseParity ..
  · exact h.takeCommand ..

theorem performWrite (h : s.PagesConserved) (p : Port) (target : WriteTarget) (w : Word) (good : Bool) :
    (s.performWrite p target w good).PagesConserved := by
  cases target with
  | cmd => exact h.commandWrite ..
  | stream st => exact h.streamWord ..
  | stray =>
    cases good
    · exact (h.setStatus ..).setStatus ..
    · exact h.setStatus ..
  | settings | statusSet | statusClear | enableSet | enableClear | param =>
    simp only [State.performWrite]
    split <;> exact h.modPort ..

theorem writeAccess (h : s.PagesConserved) (p : Port) (a : WordAddr) (w : Word) (bus : WriteParity) :
    (s.writeAccess p a w bus).PagesConserved := by
  unfold State.writeAccess
  dsimp only
  split_ifs
  · exact h.answer ..
  · exact (h.setStatus ..).answer ..
  · exact (h.performWrite ..).answer ..

theorem performRead (h : s.PagesConserved) (p : Port) (target : ReadTarget) :
    (s.performRead p target).PagesConserved := by
  unfold State.performRead
  split
  · split
    · exact (h.modPort ..).answer ..
    · exact h.answer ..
  · split
    · exact h.answer ..
    · exact (h.setStatus ..).answer ..
  · exact (h.setStatus ..).answer ..
  all_goals exact h.answer ..

theorem readAccess (h : s.PagesConserved) (p : Port) (a : WordAddr) (addrParity : Bool) :
    (s.readAccess p a addrParity).PagesConserved := by
  unfold State.readAccess
  split_ifs
  · exact h.answer ..
  · exact (h.setStatus ..).answer ..
  · exact h.performRead ..

/-! ### The dispatcher, the engines and the hold timer -/

theorem grantTo (h : s.PagesConserved) (e : EngineId) (p : Port) (tag : Tag) :
    (s.grantTo e p tag).PagesConserved := by
  unfold State.grantTo
  split
  · split
    · exact (h.modJob p tag fun j => j.keptBy_granted e).congr rfl rfl
    · exact h
  · exact h

theorem grant (h : s.PagesConserved) : s.grant.PagesConserved := by
  unfold State.grant
  split
  · exact h
  · split
    · exact h.grantTo ..
    · exact h

theorem abortReport (h : s.PagesConserved) (e : EngineId) {j : Job} (hj : j ∈ s.jobs) :
    (s.abortReport e j).PagesConserved :=
  ((h.freeJob hj).modEngine ..).pushNotice ..

/-- The completion report returns the input list; the HELD record keeps the output list (R13). -/
theorem completionReport (h : s.PagesConserved) (e : EngineId) {j : Job} (hj : j ∈ s.jobs) (po : PendingOutcome) :
    (s.completionReport e j po).PagesConserved := by
  unfold State.completionReport
  refine ((h.modJob_returnPages hj ?_ ?_).modEngine ..).pushNotice ..
  · exact fun _ => rfl
  · exact .refl _

/-- A boundary frees its job or goes on, in a state with the same jobs and free list (R91). -/
theorem boundary (h : s.PagesConserved) (e : EngineId) {j : Job} (hj : j ∈ s.jobs) {proceed : State → State}
    (hproceed : ∀ f, (proceed (s.modEngine e f)).PagesConserved) : (s.boundary e j proceed).PagesConserved := by
  cases habort : j.abortRequested with
  | true =>
    rw [boundary_yes habort]
    exact (h.modEngine ..).abortReport e hj
  | false =>
    rw [boundary_no habort]
    exact hproceed _

/-- A boundary after the engine's own work, that goes on to another stage. -/
theorem boundary_stage (h : s.PagesConserved) {e : EngineId} {stage : Stage} {j : Job} {pr : Params}
    (hstage : s.inStage e stage = some (j, pr)) (work next : Engine → Engine) :
    ((s.modEngine e work).boundary e j fun s => s.modEngine e next).PagesConserved :=
  (h.modEngine e work).boundary e (s := s.modEngine e work) (mem_jobs_of_inStage hstage :) fun f =>
    ((h.modEngine e work).modEngine e f).modEngine e next

theorem endOfPrime (h : s.PagesConserved) (e : EngineId) : (s.endOfPrime e).PagesConserved := by
  unfold State.endOfPrime
  split
  · next hstage => exact h.boundary_stage hstage ..
  · exact h

theorem endOfPass1 (h : s.PagesConserved) (e : EngineId) : (s.endOfPass1 e).PagesConserved := by
  unfold State.endOfPass1
  split
  · next hstage => exact h.boundary_stage hstage ..
  · exact h

theorem endOfPass2 (h : s.PagesConserved) (e : EngineId) : (s.endOfPass2 e).PagesConserved := by
  unfold State.endOfPass2
  split
  · next hstage => exact h.boundary_stage hstage ..
  · exact h

theorem endOfEvaluate (h : s.PagesConserved) (e : EngineId) : (s.endOfEvaluate e).PagesConserved := by
  unfold State.endOfEvaluate
  split
  · exact h.modEngine ..
  · exact h

theorem endOfStore (h : s.PagesConserved) (e : EngineId) : (s.endOfStore e).PagesConserved := by
  unfold State.endOfStore
  split
  · next j pr po hstage _ =>
    have hjobs : ∀ vs, (s.writeArea j.output 0 vs).jobs = s.jobs := fun vs => by rw [writeArea_frame]
    have hj : ∀ vs, j ∈ (s.writeArea j.output 0 vs).jobs := fun vs => hjobs vs ▸ mem_jobs_of_inStage hstage
    have hstored := h.writeArea j.output 0
    exact (hstored _).boundary e (hj _) fun f => ((hstored _).modEngine e f).completionReport e (hj _) po
  · exact h

theorem tickOnce (h : s.PagesConserved) : s.tickOnce.PagesConserved := by
  cases hreset : s.deviceReset with
  | true => rwa [tickOnce_reset hreset]
  | false =>
    rw [tickOnce_running hreset]
    exact h.mapJobs (fun j _ => j.keptBy_raiseExpiry _) rfl rfl

theorem expireJob (h : s.PagesConserved) (p : Port) (tag : Tag) : (s.expireJob p tag).PagesConserved := by
  unfold State.expireJob
  split
  · next j hj =>
    split_ifs
    · exact (h.freeJob (findJob_some hj).1).modPort ..
    · exact h
  · exact h

/-! ### Reset inputs -/

/-- A device reset leaves no job and every page free, whatever the state before (R40). -/
theorem deviceResetWith (s : State) (units : PerPort PortUnit) : (s.deviceResetWith units).PagesConserved :=
  ⟨List.nodup_nil, by simp [State.deviceResetWith, State.reset]⟩

theorem releaseDeviceReset (h : s.PagesConserved) (prof1 prof0 : Bool) :
    (s.releaseDeviceReset prof1 prof0).PagesConserved := by
  unfold State.releaseDeviceReset
  split
  · exact h.congr rfl rfl
  · exact h

/-! ### One step -/

/-- Every row of the table answers a next state that keeps the law. -/
theorem exec_next (h : s.PagesConserved) (i : Instr) : ∃ t : State, exec i s = .next t ∧ t.PagesConserved := by
  cases i with
  | openJob | trigger | abort | collect | release | query | portReset | badCommand | streamWord | paramWrite
  | settingsWrite | statusSet | statusClear | enableSet | enableClear | strayWrite =>
    exact ⟨_, rfl, h.writeAccess ..⟩
  | noticeRead | resultWindowRead | strayRead => exact ⟨_, rfl, h.readAccess ..⟩
  | grant => exact ⟨_, rfl, h.grant⟩
  | endOfPrime e => exact ⟨_, rfl, h.endOfPrime e⟩
  | endOfPass1 e => exact ⟨_, rfl, h.endOfPass1 e⟩
  | endOfPass2 e => exact ⟨_, rfl, h.endOfPass2 e⟩
  | endOfEvaluate e => exact ⟨_, rfl, h.endOfEvaluate e⟩
  | endOfStore e => exact ⟨_, rfl, h.endOfStore e⟩
  | tick => exact ⟨_, rfl, h.tickOnce⟩
  | expiry p tag => exact ⟨_, rfl, h.expireJob p tag⟩
  | deviceReset | powerOn => exact ⟨_, rfl, deviceResetWith ..⟩
  | deviceResetRelease prof1 prof0 => exact ⟨_, rfl, h.releaseDeviceReset prof1 prof0⟩
  | portResetLineAssertion p held => exact ⟨_, rfl, (h.portReset p).modPort ..⟩
  | portResetLineRelease p => exact ⟨_, rfl, h.modPort ..⟩

theorem step_next (h : s.PagesConserved) : ∃ t : State, step s = .next t ∧ t.PagesConserved := by
  unfold step
  split
  · exact ⟨s, rfl, h⟩
  · next i rest _ => exact (h.congr (t := { s with pending := rest }) rfl rfl).exec_next i

end PagesConserved

end State

/-- Settles O52, event by event: an event moves no page, or it opens, completes or frees live jobs, which moves their
pages between the free list and their records; a device reset makes every page free. -/
theorem stepKeepsPagesConserved : Obligations.StepKeepsPagesConserved := by
  intro s t h hstep
  obtain ⟨t', hnext, ht'⟩ := h.step_next
  obtain rfl : t' = t := by simpa [hnext] using hstep
  exact ht'

end Sys2Proof.Machine
end

section
/-! PROOF. A response or an acknowledgement that follows another change of the same port unit is one change of that
unit. -/

namespace Sys2Proof

theorem PerPort.set_set {α : Type} (x : PerPort α) (p : Port) (v u : α) : (x.set p v).set p u = x.set p u := by
  cases p <;> rfl

end Sys2Proof

namespace Sys2Proof.Machine.State

/-- The acknowledgement joins what the access has done to the port unit. -/
theorem answer_of_ports {s : State} {p : Port} {x : PerPort PortUnit} {u : PortUnit} (h : s.ports = x.set p u)
    (ans : BusAnswer) : s.answer p ans = { s with ports := x.set p { u with bus := ans } } := by
  simp only [answer, modPort, h, PerPort.get_set_self, PerPort.set_set]

/-- The response joins what the event has done to the port unit. -/
theorem told_of_ports {s : State} {p : Port} {x : PerPort PortUnit} {u : PortUnit} (h : s.ports = x.set p u)
    (code : RespCode) (cmd : BitVec 8) (tag : Tag) (r1 r2 r3 : Word) :
    s.told p code cmd tag r1 r2 r3 = { s with ports := x.set p (u.told code cmd tag r1 r2 r3) } := by
  simp only [told, withPort, port, h, PerPort.get_set_self, PerPort.set_set]

end Sys2Proof.Machine.State
end

section
/-! PROOF. OPEN as its ordered checks decide (Tables 3-2 and 3-3): the words of a refusal, and the job that an accepted
OPEN creates in one event. -/

namespace Sys2Proof.Machine

/-! ### Sizes of a job with K in range -/

theorem inputPages_lt_256 {k : Nat} (hk : k ≤ 8192) (generated : Bool) : inputPages k generated < 256 := by
  cases generated <;> simp only [inputPages, softWords, permWords, if_true, Bool.false_eq_true, if_false] <;> omega

theorem outputPages_lt_256 {k : Nat} (hk : k ≤ 8192) (soft : Bool) : outputPages k soft < 256 := by
  cases soft <;> simp only [outputPages, hardBytes, softBytes, if_true, Bool.false_eq_true, if_false] <;> omega

theorem openPagesWord_eq {inp outp : Nat} (hi : inp < 256) (ho : outp < 256) :
    openPagesWord inp outp = BitVec.ofNat 32 (inp + 2 ^ 16 * outp) := by
  refine BitVec.eq_of_toNat_eq ?_
  simp only [openPagesWord, toNat_append_eq_add, BitVec.toNat_ofNat]
  omega

theorem openCountsWord_eq {k : Nat} (hk : k ≤ 8192) (generated : Bool) :
    openCountsWord k generated = BitVec.ofNat 32 (softWords k + 2 ^ 16 * permWords k generated) := by
  have hs : softWords k < 2 ^ 12 := by simp only [softWords]; omega
  have hp : permWords k generated < 2 ^ 13 := by
    cases generated <;> simp only [permWords, if_true, Bool.false_eq_true, if_false] <;> omega
  refine BitVec.eq_of_toNat_eq ?_
  simp only [openCountsWord, toNat_append_eq_add, BitVec.toNat_ofNat]
  omega

/-! ### The first failing check of an ordered list -/

theorem find?_cons_eq_ite {α : Type} (f : α → Bool) (a : α) (l : List α) :
    (a :: l).find? f = if f a = true then some a else l.find? f := by
  rw [List.find?_cons]
  cases f a <;> rfl

namespace OpenRecord

/-- The reason is that of the first condition of Table 3-3 that fails (R43): both sides are the same tests in turn. -/
theorem badReason_eq (r : OpenRecord) : r.badReason = (paramOrder.find? r.fails).map (BitVec.ofNat 4) := by
  simp only [badReason, paramOrder, find?_cons_eq_ite, List.find?_nil, fails, Bool.or_eq_true, Bool.and_eq_true,
    decide_eq_true_eq, beq_iff_eq, bne_iff_ne, apply_ite (Option.map (BitVec.ofNat 4)), Option.map_some,
    Option.map_none, or_assoc]
  rfl

theorem find?_fails_eq_none_iff (r : OpenRecord) :
    paramOrder.find? r.fails = none ↔ paramOrder.any r.fails = false := by
  simp only [List.find?_eq_none, List.any_eq_false]

/-- A record that no condition of Table 3-3 refuses has K in range. -/
theorem k_le_of_any_fails {r : OpenRecord} (h : paramOrder.any r.fails = false) : r.k ≤ 8192 := by
  have h1 : r.fails 1 = false := by simpa using List.any_eq_false.1 h 1 (by decide)
  simp only [fails, Bool.or_eq_false_iff, decide_eq_false_iff_not] at h1
  omega

/-- RESP1 of PARAM carries the reason's number. -/
theorem setWidth_reason {n : Nat} (h : n ∈ paramOrder) : (BitVec.ofNat 4 n).setWidth 32 = BitVec.ofNat 32 n := by
  revert n
  decide

/-- The answer to an OPEN whose first failing check is given, with RESP1 and RESP2 of a refusal (R43, R45). -/
def answered (r : OpenRecord) : Option RespCode → OpenAnswer
  | none => .accept
  | some code => .refuse code
      (if code = .param then BitVec.ofNat 32 ((paramOrder.find? r.fails).getD 0) else 0)
      (if code = .quotaPages ∨ code = .noSpace then
        BitVec.ofNat 32 (inputPages r.k r.generated + 2 ^ 16 * outputPages r.k r.softOutput) else 0)

theorem isGenerated_params (r : OpenRecord) : r.params.permSource.isGenerated = r.generated := by
  cases h : r.generated <;> simp only [params, h] <;> rfl

/-- The checker that serves a job opened with a record (R48). -/
theorem prepared_params (r : OpenRecord) : Checker.prepared r.params = { Checker.cleared with
    k := r.k, generated := r.generated, autoTrigger := r.autoTrigger
    expected := ⟨softWords r.k, softWords r.k, softWords r.k, permWords r.k r.generated⟩ } := by
  simp only [Checker.prepared, isGenerated_params]
  rfl

end OpenRecord

namespace State

/-- An OPEN is answered by the first check of Table 3-2 that fails (R42, R45). -/
theorem openAnswer_eq (s : State) (p : Port) (r : OpenRecord) :
    s.openAnswer p r = r.answered (openOrder.find? (s.openFails p r)) := by
  have hdup : (s.jobs.any fun j => j.owner == p && j.tag == r.tag) = (s.findJob p r.tag).isSome :=
    List.isSome_find?.symm
  simp only [openAnswer, openOrder, find?_cons_eq_ite, List.find?_nil, openFails, apply_ite r.answered, hdup,
    beq_iff_eq, decide_eq_true_eq, r.badReason_eq]
  cases hparam : paramOrder.find? r.fails with
  | some n =>
    have hany : paramOrder.any r.fails = true :=
      List.any_eq_true.2 ⟨n, List.mem_of_find?_eq_some hparam, List.find?_some hparam⟩
    simp only [hany, if_true, Option.map_some, OpenRecord.answered, hparam, Option.getD_some,
      OpenRecord.setWidth_reason (List.mem_of_find?_eq_some hparam)]
    rfl
  | none =>
    have hany := r.find?_fails_eq_none_iff.1 hparam
    have hk := OpenRecord.k_le_of_any_fails hany
    have hpages := openPagesWord_eq (inputPages_lt_256 hk r.generated) (outputPages_lt_256 hk r.softOutput)
    simp only [hany, Bool.false_eq_true, if_false, Option.map_none, OpenRecord.answered, ← hpages]
    rfl

/-- An OPEN that passes the port unit is answered by the job table (R42, R165). -/
theorem PassesPort.exec_openJob {s : State} {p : Port} {reserved : BitVec 24} {bus : WriteParity}
    (h : s.PassesPort p reserved 1 bus) :
    exec (.openJob p reserved bus) s = .next ((s.jobOpen p).answer p (.wrote true false)) :=
  congrArg Host.Outcome.next h.writeAccess_eq

/-- A refused OPEN changes its response alone (R45). -/
theorem jobOpen_refused {s : State} {p : Port} {code : RespCode} {r1 r2 : Word}
    (h : s.openAnswer p (s.openRecord p) = .refuse code r1 r2) :
    s.jobOpen p = s.respond p code codeOpen (s.openRecord p).tag r1 r2 0 := by
  simp only [jobOpen, h]

/-- An accepted OPEN (R44). -/
theorem jobOpen_accepted {s : State} {p : Port} (h : s.openAnswer p (s.openRecord p) = .accept) :
    let r := s.openRecord p
    s.jobOpen p = (s.createJob p r).respond p .ok codeOpen r.tag (openCountsWord r.k r.generated)
      (openPagesWord r.inPages r.outPages) 0 := by
  simp only [jobOpen, h]

/-- The pages that a creation takes are marked clean, and no other marker changes (R26, R31). -/
theorem isClean_createJob (s : State) (p : Port) (r : OpenRecord) (pg : Page) :
    (s.createJob p r).isClean pg = (s.isClean pg || decide (pg ∈ s.free.take r.totalPages)) :=
  getLsbD_foldl_pageMark ..

/-- The port unit after a creation names the job and serves it with a prepared checker (R44, R48). -/
theorem createJob_ports (s : State) (p : Port) (r : OpenRecord) :
    (s.createJob p r).ports = s.ports.set p { s.port p with
    slot := some r.tag
    checker := { Checker.cleared with
      k := r.k, generated := r.generated, autoTrigger := r.autoTrigger
      expected := ⟨softWords r.k, softWords r.k, softWords r.k, permWords r.k r.generated⟩ } } := by
  rw [← r.prepared_params]
  rfl

end State

/-- Settles O18: `State.openAnswer_eq` gives the words of the first failing check, and a refusal only answers. -/
theorem openRefusedByFirstCheck : Obligations.OpenRefusedByFirstCheck := by
  intro s p reserved bus code hpass r hfirst
  have hrefused : s.openAnswer p r = r.answered (some code) := hfirst ▸ s.openAnswer_eq p r
  rw [hpass.exec_openJob, State.jobOpen_refused hrefused, State.answer_respond]
  rfl

/-- Settles O19: no check fails, so the OPEN creates the job and answers its counts, which K in range keeps within their
fields. -/
theorem openCreatesStagingJob : Obligations.OpenCreatesStagingJob := by
  intro s p reserved bus hpass r inp outp hnone
  have haccepted : s.openAnswer p r = .accept := by rw [State.openAnswer_eq, hnone]; rfl
  have hk : r.k ≤ 8192 := by
    refine OpenRecord.k_le_of_any_fails ?_
    simpa [State.openFails] using List.find?_eq_none.1 hnone .param (by decide)
  have hcounts := openCountsWord_eq hk r.generated
  have hpages := openPagesWord_eq (inputPages_lt_256 hk r.generated) (outputPages_lt_256 hk r.softOutput)
  have hexec : exec (.openJob p reserved bus) s = .next ((s.createJob p r).told p .ok 1 r.tag
      (BitVec.ofNat 32 (softWords r.k + 2 ^ 16 * permWords r.k r.generated))
      (BitVec.ofNat 32 (inp + 2 ^ 16 * outp)) 0) := by
    rw [hpass.exec_openJob, State.jobOpen_accepted haccepted, State.answer_respond, ← hcounts, ← hpages]
    rfl
  refine ⟨_, hexec, fun pg => s.isClean_createJob p r pg, ?_⟩
  exact (State.told_of_ports (s.createJob_ports p r) ..).trans rfl

end Sys2Proof.Machine
end

section
/-! PROOF. The fate of a stream word, one lemma for each line of Table 3-6: what a discarded word sets (R52 to R54), and
where an accepted one is stored and when it fires the auto-trigger (R55, R62). -/

namespace Sys2Proof.Machine

namespace State

/-! ### Lines 1 to 3 of Table 3-6 -/

section discarded
variable {s : State} {p : Port} {st : Stream} {w : Word}

theorem streamWord_noJob (hs : (s.port p).slot = none) :
    s.streamWord p st w true = s.modPort p (·.setBit .strayWrite) := by
  simp only [streamWord, hs, if_true, setStatus_eq]

theorem streamWord_noJob_badParity (hs : (s.port p).slot = none) :
    s.streamWord p st w false = s.modPort p fun u => (u.setBit .strayWrite).setBit .dataParity := by
  simp only [streamWord, hs, Bool.false_eq_true, if_false, setStatus_eq, modPort_modPort]

theorem streamWord_badParity {tag : Tag} (hs : (s.port p).slot = some tag) :
    s.streamWord p st w false =
      s.modPort p fun u => { u with checker := { u.checker with parityFault := true } }.setBit .dataParity := by
  simp only [streamWord, hs, Bool.not_false, if_true, setStatus_eq, modChecker_eq, modPort_modPort]

theorem streamWord_overflow {tag : Tag} (hs : (s.port p).slot = some tag)
    (hfull : (s.port p).checker.received.get st = (s.port p).checker.expected.get st) :
    s.streamWord p st w true = s.modPort p fun u => { u with checker := { u.checker with overflow := true } } := by
  simp only [streamWord, hs, Checker.isFull, hfull, Bool.not_true, Bool.false_eq_true, if_false, beq_self_eq_true,
    if_true, modChecker_eq]

theorem streamWord_accepted {tag : Tag} (hs : (s.port p).slot = some tag)
    (hroom : (s.port p).checker.received.get st ≠ (s.port p).checker.expected.get st) :
    s.streamWord p st w true = s.acceptStreamWord p tag st w := by
  simp only [streamWord, hs, Checker.isFull, Bool.not_true, Bool.false_eq_true, if_false, beq_iff_eq, hroom]

end discarded

/-- A stream word that its port performs meets Table 3-6 with its data parity (R51, R156). -/
theorem Performs.exec_streamWord {s : State} {p : Port} (h : s.Performs p) {st : Stream} {offset : BitVec 10} (w : Word)
    {bus : WriteParity} (ha : addrParityGood (apertureAddr st offset) true bus.addr = true) :
    exec (.streamWord p st offset w bus) s =
      .next ((s.streamWord p st w (dataParityGood w bus.data)).answer p (.wrote true false)) := by
  refine congrArg Host.Outcome.next ?_
  rw [writeAccess_performed h.portClosed_eq_false w ha, writeTarget_apertureAddr, performWrite_stream]
  rfl

end State

/-- Settles O33: lines 1 to 3 of Table 3-6, each by its lemma of `State.streamWord`. -/
theorem streamWordDiscarded : Obligations.StreamWordDiscarded := by
  intro s p st offset w bus hperf ha becomes u
  have hexec {good : Bool} {f : PortUnit → PortUnit} (hgood : dataParityGood w bus.data = good)
      (hf : s.streamWord p st w good = s.modPort p f) : becomes (f u) := by
    show exec _ s = _
    rw [hperf.exec_streamWord w ha, hgood, hf, State.answer_of_ports rfl]
    rfl
  refine ⟨fun hs hgood => ?_, fun hs hbad => ?_, fun hs hbad => ?_, fun hs hgood hfull => ?_⟩
  · exact hexec hgood (State.streamWord_noJob hs)
  · exact hexec hbad (State.streamWord_noJob_badParity hs)
  · obtain ⟨tag, hs⟩ := Option.isSome_iff_exists.1 hs
    exact hexec hbad (State.streamWord_badParity hs)
  · obtain ⟨tag, hs⟩ := Option.isSome_iff_exists.1 hs
    exact hexec hgood (State.streamWord_overflow hs hfull)

/-! ### Line 4 of Table 3-6 -/

/-- The condition of R62. -/
theorem Checker.autoFires_iff (c : Checker) : c.autoFires = true ↔
    c.autoTrigger = true ∧ c.parityFault = false ∧ c.overflow = false ∧ c.permFault = false ∧
      ∀ st, c.received.get st = c.expected.get st := by
  have hall : (∀ st, c.received.get st = c.expected.get st) ↔
      c.isFull .sys = true ∧ c.isFull .par1 = true ∧ c.isFull .par2 = true ∧ c.isFull .perm = true := by
    simp only [isFull, beq_iff_eq]
    exact ⟨fun h => ⟨h _, h _, h _, h _⟩, fun ⟨h0, h1, h2, h3⟩ st => by cases st <;> assumption⟩
  rw [hall]
  simp only [autoFires, Bool.and_eq_true, Bool.not_eq_true']
  tauto

namespace State

/-- A page is read from the bytes and its clean marker alone. -/
theorem readPage_congr {s t : State} (hmem : s.mem = t.mem) (hclean : s.clean = t.clean) (pg : Page) (x : Nat) :
    s.readPage pg x = t.readPage pg x := by
  unfold readPage isClean
  rw [hmem, hclean]

/-- Bytes stored within the page at one position of a list, which may name that page elsewhere too: no other byte of any
page changes. -/
theorem readPage_writeArea_within {s : State} (h : s.mem.wf) {pages : List Page} {i : Nat} {pg : Page}
    (hpg : pages[i]? = some pg) {b : Nat} {vs : List Byte} (hl : b + vs.length ≤ 1024) (q : Page) {x : Nat}
    (hx : x < 1024) : (s.writeArea pages (1024 * i + b) vs).readPage q x =
      if q = pg ∧ b ≤ x ∧ x < b + vs.length then vs.getD (x - b) 0 else s.readPage q x := by
  induction vs generalizing s b with
  | nil => rw [writeArea, if_neg]; simp only [List.length_nil]; omega
  | cons v vs ih =>
    rw [List.length_cons] at hl
    have hbyte : s.writeAreaByte pages (1024 * i + b) v = s.writePage pg b v := by
      have hi : (1024 * i + b) / 1024 = i := by omega
      have hb : (1024 * i + b) % 1024 = b := by omega
      simp only [writeAreaByte, hi, hb, hpg]
    rw [writeArea, hbyte, Nat.add_assoc, ih (wf_writePage h ..) (by omega), readPage_writePage h _ _ _ (by omega) hx,
      List.length_cons]
    by_cases hxb : x = b
    · subst hxb
      simp
    · have hsucc : b + 1 ≤ x → x - b = (x - (b + 1)) + 1 := by omega
      grind

/-- Bytes at a position beyond the list are stored nowhere. -/
theorem writeArea_beyond {s : State} {pages : List Page} {i : Nat} (hpg : pages[i]? = none) {b : Nat} {vs : List Byte}
    (hl : b + vs.length ≤ 1024) : s.writeArea pages (1024 * i + b) vs = s := by
  induction vs generalizing b with
  | nil => rfl
  | cons v vs ih =>
    rw [List.length_cons] at hl
    have hi : (1024 * i + b) / 1024 = i := by omega
    have hbyte : s.writeAreaByte pages (1024 * i + b) v = s := by simp only [writeAreaByte, hi, hpg]
    rw [writeArea, hbyte, Nat.add_assoc]
    exact ih (by omega)

theorem getD_wordBytes (w : Word) {b : Nat} (hb : b < 4) : (wordBytes w).getD b 0 = byteOf w b :=
  match b, hb with
  | 0, _ | 1, _ | 2, _ | 3, _ => rfl

/-- A word stored at a word's offset of an area lies in one page, which changes in the word's four bytes (R34, R55). -/
theorem readPage_writeArea_wordBytes {s : State} (h : s.mem.wf) (pages : List Page) {o : Nat} (ho : o % 4 = 0)
    (w : Word) (q : Page) {x : Nat} (hx : x < 1024) :
    (s.writeArea pages o (wordBytes w)).readPage q x =
      if pages[o / 1024]? = some q ∧ o % 1024 ≤ x ∧ x < o % 1024 + 4 then byteOf w (x - o % 1024)
      else s.readPage q x := by
  have hlen : (wordBytes w).length = 4 := rfl
  have hfit : o % 1024 + (wordBytes w).length ≤ 1024 := by omega
  have hcut := Nat.div_add_mod o 1024
  cases hpg : pages[o / 1024]? with
  | none =>
    have hbeyond := writeArea_beyond (s := s) hpg hfit
    rw [hcut] at hbeyond
    simp [hbeyond]
  | some pg =>
    have hwithin := readPage_writeArea_within h hpg hfit q hx
    rw [hcut, hlen] at hwithin
    rw [hwithin]
    simp only [Option.some.injEq, eq_comm (a := pg)]
    split_ifs
    · exact getD_wordBytes w (by omega)
    · rfl

/-- The store of a word changes the bytes and the clean markers alone. -/
theorem storeStreamWord_frame (s : State) (p : Port) (tag : Tag) (o : Nat) (w : Word) :
    s.storeStreamWord p tag o w =
      { s with mem := (s.storeStreamWord p tag o w).mem, clean := (s.storeStreamWord p tag o w).clean } := by
  unfold storeStreamWord
  split
  · exact writeArea_frame ..
  · rfl

theorem storeStreamWord_staging {s : State} {p : Port} {tag : Tag} {j : Job} {input : List Page}
    (hj : s.findJob p tag = some j) (hph : j.phase = .staging input) (o : Nat) (w : Word) :
    s.storeStreamWord p tag o w = s.writeArea input o (wordBytes w) := by
  simp only [storeStreamWord, hj, Job.inputPages, hph]

/-- The state with an accepted word stored, counted and checked, before the auto-trigger is considered (R55). -/
def wordTaken (s : State) (p : Port) (tag : Tag) (st : Stream) (w : Word) : State :=
  let stored := s.storeStreamWord p tag ((s.port p).checker.nextOffset st) w
  { s with mem := stored.mem, clean := stored.clean
           ports := s.ports.set p { s.port p with checker := (s.port p).checker.accept st w } }

section wordTaken
variable (s : State) (p : Port) (tag : Tag) (st : Stream) (w : Word)

theorem wordTaken_eq : s.wordTaken p tag st w =
    (s.storeStreamWord p tag ((s.port p).checker.nextOffset st) w).modChecker p (·.accept st w) := by
  rw [storeStreamWord_frame]
  rfl

@[simp] theorem port_wordTaken :
    (s.wordTaken p tag st w).port p = { s.port p with checker := (s.port p).checker.accept st w } :=
  PerPort.get_set_self ..

/-- Line 4 of Table 3-6. -/
theorem acceptStreamWord_eq : s.acceptStreamWord p tag st w =
    if ((s.port p).checker.accept st w).autoFires then (s.wordTaken p tag st w).triggerJob p tag
    else s.wordTaken p tag st w := by
  simp only [acceptStreamWord, ← wordTaken_eq, port_wordTaken]

/-- The page of the word's offset changes in the word's four bytes, and no page changes otherwise (R34, R55). -/
theorem readPage_wordTaken {j : Job} {input : List Page} (hj : s.findJob p tag = some j)
    (hph : j.phase = .staging input) (hm : s.mem.wf) (q : Page) {x : Nat} (hx : x < 1024) :
    let o := (s.port p).checker.nextOffset st
    (s.wordTaken p tag st w).readPage q x =
      if input[o / 1024]? = some q ∧ o % 1024 ≤ x ∧ x < o % 1024 + 4 then byteOf w (x - o % 1024)
      else s.readPage q x := by
  intro o
  have ho : o % 4 = 0 := by simp only [o, Checker.nextOffset, Nat.mul_assoc]; omega
  rw [← readPage_writeArea_wordBytes hm input ho w q hx, ← storeStreamWord_staging hj hph]
  exact readPage_congr rfl rfl q x

end wordTaken

/-! ### The auto-trigger -/

/-- A change of the records of one identity is the change of the one live job that has it. -/
theorem IdsDistinct.map_isFor {s : State} (h : s.IdsDistinct) {p : Port} {tag : Tag} {j : Job}
    (hj : s.findJob p tag = some j) (f : Job → Job) :
    (s.jobs.map fun k => if k.isFor p tag then f k else k) =
      s.jobs.map fun k => if k.owner = p ∧ k.tag = tag then f j else k := by
  refine List.map_congr_left fun k hk => ?_
  obtain ⟨hmem, rfl, rfl⟩ := findJob_some hj
  by_cases hkj : k.isFor j.owner j.tag = true
  · obtain rfl := h.eq_of_id hk hmem ((k.isFor_iff_id _ _).1 hkj)
    simp [hkj]
  · rw [if_neg hkj, if_neg (mt (k.isFor_iff _ _).2 hkj)]

/-- The auto-trigger queues the job with the clamp count that the word leaves (R5, R12, R62). -/
theorem triggerJob_wordTaken {s : State} {p : Port} {tag : Tag} {j : Job} {input : List Page} (h : s.IdsDistinct)
    (hj : s.findJob p tag = some j) (hph : j.phase = .staging input) (st : Stream) (w : Word) :
    (s.wordTaken p tag st w).triggerJob p tag = { s.wordTaken p tag st w with
      jobs := s.jobs.map fun k => if k.owner = p ∧ k.tag = tag then
        { j with phase := .queued ((s.port p).checker.accept st w).clamp input } else k
      queues := s.queues.set p (s.queue p ++ [tag])
      ports := s.ports.set p { s.port p with slot := none, checker := Checker.cleared } } := by
  have hfound : (s.wordTaken p tag st w).findJob p tag = some j := hj
  have hstaging : j.isStaging = true := by simp only [Job.isStaging, hph]
  have hqueued (clamp : Nat) : j.queued clamp = { j with phase := .queued clamp input } := by
    simp only [Job.queued, hph]
  have hjobs : ((s.wordTaken p tag st w).jobs.map fun k =>
      if k.isFor p tag then k.queued ((s.wordTaken p tag st w).port p).checker.clamp else k) = s.jobs.map fun k =>
        if k.owner = p ∧ k.tag = tag then
          { j with phase := .queued ((s.port p).checker.accept st w).clamp input } else k := by
    rw [port_wordTaken, ← hqueued]
    exact h.map_isFor hj _
  have hports : (s.wordTaken p tag st w).ports.set p
      { (s.wordTaken p tag st w).port p with slot := none, checker := Checker.cleared } =
        s.ports.set p { s.port p with slot := none, checker := Checker.cleared } := by
    rw [port_wordTaken]
    exact PerPort.set_set ..
  rw [triggerJob_staging hfound hstaging, hjobs, hports]
  rfl

end State

/-- Settles O34: line 4 of Table 3-6, by what is taken of the word and what the auto-trigger then does. -/
theorem streamWordAccepted : Obligations.StreamWordAccepted := by
  intro s p st offset w bus tag j input hgood hm hids hslot hj hph c c' o fires hroom
  have hexec : exec (.streamWord p st offset w bus) s =
      .next ((s.acceptStreamWord p tag st w).answer p (.wrote true false)) := by
    rw [hgood.performs.exec_streamWord w hgood.addr, hgood.data, State.streamWord_accepted hslot hroom]
  have hread (q : Page) {x : Nat} (hx : x < 1024) := State.readPage_wordTaken s p tag st w hj hph hm q hx
  by_cases hf : c'.autoFires = true
  · have hfires : fires := c'.autoFires_iff.1 hf
    rw [State.acceptStreamWord_eq, if_pos hf, State.triggerJob_wordTaken hids hj hph] at hexec
    refine ⟨_, hexec, fun q x hx => ?_, fun hn => absurd hfires hn, fun _ => ?_⟩
    · exact (State.readPage_congr rfl rfl q x).trans (hread q hx)
    · exact (State.answer_of_ports (x := s.ports) rfl _).trans rfl
  · have hwaits : ¬ fires := mt c'.autoFires_iff.2 hf
    rw [State.acceptStreamWord_eq, if_neg hf] at hexec
    refine ⟨_, hexec, fun q x hx => ?_, fun _ => ?_, fun h => absurd h hwaits⟩
    · exact (State.readPage_congr rfl rfl q x).trans (hread q hx)
    · exact (State.answer_of_ports (x := s.ports) rfl _).trans rfl

end Sys2Proof.Machine
end

section
/-! PROOF. The staging checker value by value: how many bytes of a soft word are saturated (R56, R57), and what the test
of each half of a PERM word records (R58 to R60). -/

namespace Sys2Proof.Machine

/-! ### Soft values -/

theorem softOutOfRange_iff (v : Byte) : softOutOfRange v = true ↔ 0x20 ≤ v.toNat ∧ v.toNat ≤ 0xE0 := by
  have := v.isLt
  simp only [softOutOfRange, Bool.or_eq_true, decide_eq_true_eq, BitVec.toInt_eq_toNat_cond]
  split <;> omega

/-- The saturated reading by the ranges of the byte (R56). -/
theorem softValue_eq (v : Byte) : softValue v =
    if 0x20 ≤ v.toNat ∧ v.toNat ≤ 0x7F then 31 else if 0x80 ≤ v.toNat ∧ v.toNat ≤ 0xE0 then -31 else v.toInt := by
  have := v.isLt
  simp only [softValue, BitVec.toInt_eq_toNat_cond]
  grind

namespace Checker

/-- Byte b of word j is a soft value that is saturated: below the padding (R57) and out of range (R56). -/
def saturates (c : Checker) (j : Nat) (w : Word) (b : Nat) : Bool :=
  decide (4 * j + b < c.k + 4 ∧ 0x20 ≤ (byteOf w b).toNat ∧ (byteOf w b).toNat ≤ 0xE0)

theorem checkSoftByte_of_saturates {c : Checker} {j : Nat} {w : Word} {b : Nat} (h : c.saturates j w b = true)
    (hc : c.clamp ≤ 65535) : c.checkSoftByte j w b = { c with clamp := min 65535 (c.clamp + 1) } := by
  obtain ⟨hpos, hbad⟩ := of_decide_eq_true h
  rw [checkSoftByte, if_pos ⟨hpos, (softOutOfRange_iff _).2 hbad⟩]
  congr 1
  split <;> omega

theorem checkSoftByte_of_kept {c : Checker} {j : Nat} {w : Word} {b : Nat} (h : c.saturates j w b = false) :
    c.checkSoftByte j w b = c := by
  refine if_neg fun ⟨hpos, hbad⟩ => of_decide_eq_false h ⟨hpos, (softOutOfRange_iff _).1 hbad⟩

/-- The bytes of a word in turn: each saturated one raises the clamp count until it stands at 65535 (R56). -/
theorem foldl_checkSoftByte {c : Checker} (hc : c.clamp ≤ 65535) (j : Nat) (w : Word) (l : List Nat) :
    l.foldl (fun c b => c.checkSoftByte j w b) c =
      { c with clamp := min 65535 (c.clamp + l.countP (c.saturates j w)) } := by
  induction l generalizing c with
  | nil => simp [Nat.min_eq_right hc]
  | cons b l ih =>
    rw [List.foldl_cons]
    cases hb : c.saturates j w b with
    | true =>
      rw [checkSoftByte_of_saturates hb hc, ih (Nat.min_le_left ..), List.countP_cons_of_pos hb]
      show _ = { c with clamp := min 65535 (c.clamp + (l.countP (c.saturates j w) + 1)) }
      congr 1
      show min 65535 (min 65535 (c.clamp + 1) + l.countP (c.saturates j w)) = _
      omega
    | false => rw [checkSoftByte_of_kept hb, ih hc, List.countP_cons_of_neg (by simp [hb])]

theorem checkSoftWord_eq {c : Checker} (hc : c.clamp ≤ 65535) (j : Nat) (w : Word) :
    c.checkSoftWord j w = { c with clamp := min 65535 (c.clamp + (List.range 4).countP (c.saturates j w)) } :=
  foldl_checkSoftByte hc j w (List.range 4)

/-- An accepted word of a soft stream is counted and its four bytes are checked (R55, R56). -/
theorem accept_soft {st : Stream} (h : st ≠ .perm) (c : Checker) (w : Word) :
    c.accept st w = { c with received := c.received.set st (c.received.get st + 1) }.checkSoftWord
      (c.received.get st) w := by
  cases st with
  | sys | par1 | par2 => rfl
  | perm => exact absurd rfl h

/-! ### Permutation indexes -/

section checkHalf
variable {c : Checker} {j : Nat} {w : Word} {h : Half}

/-- A padding half is not tested (R60). -/
theorem checkHalf_padding (hp : c.k ≤ halfPosition j h) : c.checkHalf j w h = c := if_pos hp

/-- A range or duplicate fault (R58, R59). -/
theorem checkHalf_fault (hp : halfPosition j h < c.k)
    (hx : c.k ≤ halfIndex w h ∨ c.seen.getLsbD (halfIndex w h) = true) :
    c.checkHalf j w h = c.badIndex ⟨j, h⟩ :=
  (if_neg (Nat.not_le.2 hp)).trans (if_pos hx)

/-- An index in range and not yet marked is marked (R58). -/
theorem checkHalf_marked (hp : halfPosition j h < c.k) (hx : halfIndex w h < c.k)
    (hs : c.seen.getLsbD (halfIndex w h) = false) :
    c.checkHalf j w h = { c with seen := c.seen ||| indexMark (halfIndex w h) } :=
  (if_neg (Nat.not_le.2 hp)).trans (if_neg (by simp [hs, hx]))

end checkHalf

end Checker

theorem getLsbD_indexMark (x y : Nat) (h : y < 8192) : (indexMark x).getLsbD y = decide (y = x) := by
  simp only [indexMark, BitVec.getLsbD_shiftLeft, BitVec.getLsbD_one]
  grind

theorem halfIndex_low (w : Word) : halfIndex w .low = w.toNat % 65536 := by
  simp [halfIndex, field, BitVec.extractLsb'_toNat]

theorem halfIndex_high (w : Word) : halfIndex w .high = w.toNat / 65536 := by
  have := w.isLt
  simp only [halfIndex, field, BitVec.extractLsb'_toNat, Nat.shiftRight_eq_div_pow]
  omega

/-- Settles O35: an accepted soft word is counted and its bytes are checked as `Checker.checkSoftWord_eq` says. -/
theorem softValuesSaturated : Obligations.SoftValuesSaturated := by
  refine ⟨fun c st w hst hc => ?_, softValue_eq⟩
  exact (Checker.accept_soft hst c w).trans (Checker.checkSoftWord_eq (by exact hc) _ w)

/-- Settles O36: the branches of `Checker.checkHalf`, with the index and the position of each half as numbers. -/
theorem permutationIndexesTested : Obligations.PermutationIndexesTested := by
  refine ⟨fun _ _ => rfl, fun c j w h => ?_⟩
  intro x position
  have hx : x = halfIndex w h := by
    cases h with
    | low => exact (halfIndex_low w).symm
    | high => exact (halfIndex_high w).symm
  have hposition : position = halfPosition j h := by cases h <;> rfl
  rw [hx, hposition]
  refine ⟨Checker.checkHalf_padding, Checker.checkHalf_fault, fun hp _ hlt hs => ?_⟩
  refine ⟨_, Checker.checkHalf_marked hp hlt hs, fun y hy => ?_⟩
  rw [BitVec.getLsbD_or, getLsbD_indexMark _ _ hy]

end Sys2Proof.Machine
end

section
/-! PROOF. TRIGGER by the state of the job it finds and the tests of Table 4-1: what a refusal answers with, and the one
event that queues the job. -/

namespace Sys2Proof.Machine

theorem Job.isStaging_iff (j : Job) : j.isStaging = true ↔ ∃ input, j.phase = .staging input := by
  unfold Job.isStaging
  split <;> simp_all

/-! ### The tests of Table 4-1 and the words of a refusal -/

namespace Checker

/-- The refusal is that of the first test of Table 4-1 that fails (R70): both sides are the same tests in turn. -/
theorem triggerRefusal_eq (c : Checker) : c.triggerRefusal = triggerOrder.find? c.triggerFails := by
  simp only [triggerRefusal, triggerOrder, find?_cons_eq_ite, List.find?_nil, triggerFails, isShort, List.any_cons,
    List.any_nil, Bool.or_false, Bool.or_assoc]

/-- The bits of the fault summary, lowest first (Table 10-7). -/
def summaryBits (c : Checker) : List Bool :=
  [c.parityFault, c.permFault, c.overflow, false, c.isShort .sys, c.isShort .par1, c.isShort .par2, c.isShort .perm]

theorem getLsbD_summaryWord (c : Checker) (i : Nat) : c.summaryWord.getLsbD i = c.summaryBits.getD i false := by
  -- The concatenation puts one bit below the rest at a time.
  change (((((((((0#24).concat (c.isShort .perm)).concat (c.isShort .par2)).concat (c.isShort .par1)).concat
    (c.isShort .sys)).concat false).concat c.overflow).concat c.permFault).concat c.parityFault).getLsbD i = _
  match i with
  | 0 | 1 | 2 | 3 | 4 | 5 | 6 | 7 | _ + 8 => simp [summaryBits]

/-- The short marks stand from bit 4 up in the order of the stream numbers. -/
theorem getLsbD_summaryWord_stream (c : Checker) (st : Stream) :
    c.summaryWord.getLsbD (4 + streamNumber st) = c.isShort st := by
  rw [getLsbD_summaryWord]
  cases st <;> rfl

theorem getLsbD_summaryWord_above (c : Checker) {i : Nat} (hi : 8 ≤ i) : c.summaryWord.getLsbD i = false := by
  rw [getLsbD_summaryWord]
  exact List.getD_eq_default _ _ hi

/-- The first bad position in RESP2 while the permutation-fault flag is set (Table 10-7). -/
theorem setWidth_firstBadField {c : Checker} {pos : BadPosition} (hf : c.permFault = true)
    (hb : c.firstBad = some pos) :
    c.firstBadField.setWidth 32 = BitVec.ofNat 32 (pos.word % 4096 + 4096 * pos.half.code.toNat) := by
  refine BitVec.eq_of_toNat_eq ?_
  rw [BitVec.toNat_setWidth, toNat_firstBadField hf hb, BitVec.toNat_ofNat]
  rfl

end Checker

namespace State

/-! ### TRIGGER at the job table (R69) -/

/-- A TRIGGER that passes the port unit is answered by the job table (R165). -/
theorem PassesPort.exec_trigger {s : State} {p : Port} {reserved : BitVec 24} {bus : WriteParity}
    (h : s.PassesPort p reserved 2 bus) :
    exec (.trigger p reserved bus) s = .next ((s.jobTrigger p).answer p (.wrote true false)) :=
  congrArg Host.Outcome.next h.writeAccess_eq

theorem jobTrigger_of_not_isStaging {s : State} {p : Port} {j : Job} (h : s.findJob p (s.namedTag p) = some j)
    (hj : j.isStaging = false) :
    s.jobTrigger p = s.respond p .wrongState codeTrigger (s.namedTag p) (stateWord j.phase) 0 0 := by
  simp only [jobTrigger, h]
  split
  · next hph => simp [j.isStaging_iff.2 ⟨_, hph⟩] at hj
  all_goals rfl

theorem jobTrigger_of_isStaging {s : State} {p : Port} {j : Job} (h : s.findJob p (s.namedTag p) = some j)
    (hj : j.isStaging = true) : s.jobTrigger p = s.triggerStaging p (s.namedTag p) := by
  obtain ⟨input, hph⟩ := j.isStaging_iff.1 hj
  simp only [jobTrigger, h, hph]

/-- A refused TRIGGER changes its response alone (R72). -/
theorem triggerStaging_refused {s : State} {p : Port} {code : RespCode}
    (h : triggerOrder.find? (s.port p).checker.triggerFails = some code) (t : Tag) :
    s.triggerStaging p t = s.respond p code codeTrigger t (s.port p).checker.summaryWord
      ((s.port p).checker.firstBadField.setWidth 32) 0 := by
  simp only [triggerStaging, Checker.triggerRefusal_eq, h]

/-- A TRIGGER that no test refuses queues the job, and answers with its clamp count and its place in the queue (R71). -/
theorem triggerStaging_passed {s : State} {p : Port}
    (h : triggerOrder.find? (s.port p).checker.triggerFails = none) (t : Tag) :
    s.triggerStaging p t = (s.triggerJob p t).respond p .ok codeTrigger t
      (BitVec.ofNat 32 (s.port p).checker.clamp) (BitVec.ofNat 32 ((s.triggerJob p t).queue p).length) 0 := by
  simp only [triggerStaging, Checker.triggerRefusal_eq, h]

/-- The event that queues a STAGING job changes the one live job of that tag, its owner's queue and the owner's slot and
checker (R12, R71). -/
theorem IdsDistinct.triggerJob_eq {s : State} (h : s.IdsDistinct) {p : Port} {t : Tag} {j : Job} {input : List Page}
    (hj : s.findJob p t = some j) (hph : j.phase = .staging input) :
    s.triggerJob p t = { s with
      jobs := s.jobs.map fun k =>
        if k.owner = p ∧ k.tag = t then { j with phase := .queued (s.port p).checker.clamp input } else k
      queues := s.queues.set p (s.queue p ++ [t])
      ports := s.ports.set p { s.port p with slot := none, checker := Checker.cleared } } := by
  have hstaging : j.isStaging = true := j.isStaging_iff.2 ⟨input, hph⟩
  have hqueued : j.queued (s.port p).checker.clamp =
      { j with phase := .queued (s.port p).checker.clamp input } := by simp only [Job.queued, hph]
  rw [triggerJob_staging hj hstaging, h.map_isFor hj, hqueued]

theorem length_queue_triggerJob {s : State} {p : Port} {t : Tag} {j : Job} (hj : s.findJob p t = some j)
    (hstaging : j.isStaging = true) : ((s.triggerJob p t).queue p).length = (s.queue p).length + 1 := by
  rw [triggerJob_staging hj hstaging, queue, PerPort.get_set_self, List.length_append, List.length_singleton]

end State

/-- Settles O23: the branches of TRIGGER at the job table that only answer, with the bits of `Checker.summaryWord` and the
field `Checker.firstBadField` read off. -/
theorem triggerRefusedByFirstTest : Obligations.TriggerRefusedByFirstTest := by
  intro s p reserved bus j hpass tag c hj
  refine ⟨fun hns => ?_, fun hstaging code hfirst => ⟨c.summaryWord, c.firstBadField.setWidth 32, ?_, ?_⟩⟩
  · rw [hpass.exec_trigger, State.jobTrigger_of_not_isStaging hj hns, State.answer_respond]
    rfl
  · rw [hpass.exec_trigger, State.jobTrigger_of_isStaging hj hstaging, State.triggerStaging_refused hfirst,
      State.answer_respond]
    rfl
  · refine ⟨c.getLsbD_summaryWord 0, c.getLsbD_summaryWord 1, c.getLsbD_summaryWord 2, c.getLsbD_summaryWord 3,
      c.getLsbD_summaryWord_stream, fun i => c.getLsbD_summaryWord_above, fun hf => ?_,
      fun pos => Checker.setWidth_firstBadField⟩
    rw [Checker.firstBadField_of_noFault hf]
    rfl

/-- Settles O24: no test refuses, so the TRIGGER is the event that queues the job, and its response joins the change of
the port unit. -/
theorem triggerQueuesJob : Obligations.TriggerQueuesJob := by
  intro s p reserved bus j input hpass hids tag c hj hph hnone
  have hstaging : j.isStaging = true := j.isStaging_iff.2 ⟨input, hph⟩
  have hexec : exec (.trigger p reserved bus) s = .next ((s.triggerJob p tag).told p .ok 2 tag
      (BitVec.ofNat 32 c.clamp) (BitVec.ofNat 32 ((s.queue p).length + 1)) 0) := by
    rw [hpass.exec_trigger, State.jobTrigger_of_isStaging hj hstaging, State.triggerStaging_passed hnone,
      State.answer_respond, ← State.length_queue_triggerJob hj hstaging]
    rfl
  have hqueued := hids.triggerJob_eq hj hph
  rw [hexec, State.told_of_ports (congrArg State.ports hqueued), hqueued]

end Sys2Proof.Machine
end

section
/-! PROOF. The checksum register as a linear feedback step (R105): with an odd generator a register is cleared by exactly
the bits that it holds, top bit first. -/

namespace Sys2Proof.Machine

section register
variable {w : Nat}

/-- The top n bits of a register, top bit first (R105). -/
def topBits (r : BitVec w) (n : Nat) : List Bool := (List.range n).map fun i => r.getLsbD (w - 1 - i)

/-- A shift toward the top brings up the bits below the top one. -/
theorem topBits_succ (r : BitVec w) {n : Nat} (h : n < w) : topBits r (n + 1) = r.msb :: topBits (r <<< 1) n := by
  rw [topBits, List.range_succ_eq_map, List.map_cons, List.map_map, topBits, BitVec.msb_eq_getLsbD_last]
  refine congrArg₂ _ rfl (List.map_congr_left fun i hi => ?_)
  have hi : i < n := List.mem_range.1 hi
  rw [BitVec.getLsbD_shiftLeft, Function.comp_apply, show w - 1 - i.succ = w - 1 - i - 1 by omega]
  simp [show w - 1 - i < w by omega, show w - 1 - i ≠ 0 by omega]

theorem checksumOf_append (g : BitVec w) (l m : List Bool) :
    checksumOf g (l ++ m) = m.foldl (checksumFeed g) (checksumOf g l) := List.foldl_append

/-- A bit that equals the top bit gives no feedback. -/
theorem checksumFeed_msb (g r : BitVec w) : checksumFeed g r r.msb = r <<< 1 := by
  simp [checksumFeed]

/-- Any other bit brings in the generator, and an odd generator sets bit 0. -/
theorem getLsbD_checksumFeed_of_ne {g : BitVec w} (hg : g.getLsbD 0 = true) {r : BitVec w} {b : Bool} (h : b ≠ r.msb) :
    (checksumFeed g r b).getLsbD 0 = true := by
  have hf : (r.msb ^^ b) = true := by rw [Bool.xor_comm]; exact bne_iff_ne.2 h
  rw [checksumFeed, if_pos hf, BitVec.getLsbD_xor, hg, BitVec.getLsbD_shiftLeft]
  simp

/-- A shift by less than the width keeps bit 0 in the register. -/
theorem shiftLeft_ne_zero_of_getLsbD_zero {r : BitVec w} (hr : r.getLsbD 0 = true) {n : Nat} (h : n < w) :
    r <<< n ≠ 0 := by
  intro h0
  have hbit : (r <<< n).getLsbD n = true := by simp [h, hr]
  simp [h0] at hbit

/-- Bits that a register is fed, at most as many as it has, leave it at 0 exactly when they are its top bits in turn and
the others are 0: the first bit that differs sets bit 0, which the shifts that are left do not discard. -/
theorem foldl_checksumFeed_eq_zero_iff {g : BitVec w} (hg : g.getLsbD 0 = true) (check : List Bool) (r : BitVec w)
    (h : check.length ≤ w) :
    check.foldl (checksumFeed g) r = 0 ↔ check = topBits r check.length ∧ r <<< check.length = 0 := by
  induction check generalizing r with
  | nil => simp [topBits]
  | cons b check ih =>
    have hlt : check.length < w := h
    rw [List.foldl_cons, ih _ hlt.le, List.length_cons, topBits_succ r hlt, List.cons.injEq]
    by_cases hb : b = r.msb
    · rw [hb, checksumFeed_msb, ← BitVec.shiftLeft_add, Nat.add_comm 1]
      simp only [true_and]
    · have hne := shiftLeft_ne_zero_of_getLsbD_zero (getLsbD_checksumFeed_of_ne hg hb) hlt
      simp only [hb, hne, false_and, and_false]

/-- The two forms of the checksum agree (R105), for an odd generator of any width. -/
theorem checksumOf_append_eq_zero_iff {g : BitVec w} (hg : g.getLsbD 0 = true) (payload : List Bool) {check : List Bool}
    (h : check.length = w) :
    checksumOf g (payload ++ check) = 0 ↔ check = topBits (checksumOf g payload) w := by
  have hout : checksumOf g payload <<< w = 0 := BitVec.shiftLeft_eq_zero le_rfl
  rw [checksumOf_append, foldl_checksumFeed_eq_zero_iff hg check _ h.le, h]
  simp only [hout, and_true]

end register

theorem checksumResult_c16_iff (bits : List Bool) :
    checksumResult .c16 bits = some true ↔ checksumOf 0x1021#16 bits = 0 := by
  simp [checksumResult]

theorem checksumResult_c24_iff (bits : List Bool) :
    checksumResult .c24 bits = some true ↔ checksumOf 0x864CFB#24 bits = 0 := by
  simp [checksumResult]

/-- Settles O42: both generators of Table 5-6 are odd, so `checksumOf_append_eq_zero_iff` holds of them. -/
theorem checksumFormsAgree : Obligations.ChecksumFormsAgree := by
  refine ⟨fun w g bits b => ⟨rfl, checksumOf_append g bits [b]⟩, fun payload check h => ?_, fun payload check h => ?_⟩
  · exact (checksumResult_c16_iff _).trans (checksumOf_append_eq_zero_iff (by decide) payload h)
  · exact (checksumResult_c24_iff _).trans (checksumOf_append_eq_zero_iff (by decide) payload h)

end Sys2Proof.Machine
end

section
/-! PROOF. The end of EVALUATE: what the stop rule looks at, the first case of R103 that applies, and what the engine becomes
on a stop and without one. -/

namespace Sys2Proof.Machine

/-! ### What a stop rule looks at (Table 5-5) -/

theorem StopRule.usesChecksum_iff (r : StopRule) : r.usesChecksum = true ↔ r = .checksum ∨ r = .either := by
  cases r <;> simp [usesChecksum]

theorem StopRule.usesQuality_iff (r : StopRule) : r.usesQuality = true ↔ r = .quality ∨ r = .either := by
  cases r <;> simp [usesQuality]

theorem meetsQuality_iff (threshold : Nat) (quality : Option Nat) :
    meetsQuality threshold quality = true ↔ ∃ q, quality = some q ∧ threshold ≤ q := by
  cases quality <;> simp [meetsQuality]

/-- A quality is formed exactly for a rule that looks at it or a job that asks for it (R102). -/
theorem isSome_iterationQuality_iff (pr : Params) (w : WorkingValues) :
    (iterationQuality pr w).isSome = true ↔
      pr.stopRule = .quality ∨ pr.stopRule = .either ∨ pr.reportQuality = true := by
  rw [← or_assoc, ← StopRule.usesQuality_iff, ← Bool.or_eq_true, iterationQuality, Option.isSome_ite]
  rfl

theorem iterationQuality_le {pr : Params} {w : WorkingValues} {q : Nat} (h : iterationQuality pr w = some q) :
    q ≤ 40 := by
  obtain ⟨-, hq⟩ := Option.ite_none_right_eq_some.1 h
  obtain rfl := Option.some.inj hq
  exact Nat.min_le_left ..

/-! ### The cases of R103 -/

/-- The case of the checksum stop. -/
def Params.ChecksumStop (pr : Params) (n streak : Nat) : Prop :=
  max pr.minIter 1 ≤ n ∧ (pr.stopRule = .checksum ∨ pr.stopRule = .either) ∧ pr.requiredMatches ≤ streak

/-- The case of the quality stop. -/
def Params.QualityStop (pr : Params) (n : Nat) (quality : Option Nat) : Prop :=
  max pr.minIter 1 ≤ n ∧ (pr.stopRule = .quality ∨ pr.stopRule = .either) ∧
    ∃ q, quality = some q ∧ pr.qualityThreshold ≤ q

section stopDecision
variable {pr : Params} {n streak : Nat} {quality : Option Nat}

theorem Params.checksumStop_iff : pr.ChecksumStop n streak ↔
    max pr.minIter 1 ≤ n ∧ pr.stopRule.usesChecksum = true ∧ pr.requiredMatches ≤ streak := by
  rw [ChecksumStop, StopRule.usesChecksum_iff]

theorem Params.qualityStop_iff : pr.QualityStop n quality ↔ max pr.minIter 1 ≤ n ∧ pr.stopRule.usesQuality = true ∧
    meetsQuality pr.qualityThreshold quality = true := by
  rw [QualityStop, StopRule.usesQuality_iff, meetsQuality_iff]

theorem stopDecision_checksum (hc : pr.ChecksumStop n streak) :
    stopDecision pr n streak quality = some .checksum :=
  if_pos (Params.checksumStop_iff.1 hc)

variable (hc : ¬ pr.ChecksumStop n streak)
include hc

theorem stopDecision_quality (hq : pr.QualityStop n quality) :
    stopDecision pr n streak quality = some .quality := by
  rw [stopDecision, if_neg (mt Params.checksumStop_iff.2 hc), if_pos (Params.qualityStop_iff.1 hq)]

/-- Without either stop, the limit decides. -/
theorem stopDecision_limit (hq : ¬ pr.QualityStop n quality) :
    stopDecision pr n streak quality = if n = pr.maxIter then some .maxReached else none := by
  rw [stopDecision, if_neg (mt Params.checksumStop_iff.2 hc), if_neg (mt Params.qualityStop_iff.2 hq)]

end stopDecision

/-! ### The engine after EVALUATE -/

section evaluated
variable {g : Engine} {pr : Params} {checksum : Option Bool} {quality : Option Nat}

/-- A stop sets the pending outcome and begins STORE (R103). -/
theorem Engine.evaluated_stop {reason : StopReason}
    (h : stopDecision pr g.iteration (nextStreak g.streak checksum) quality = some reason) :
    g.evaluated pr checksum quality = { g with
      streak := nextStreak g.streak checksum, lastChecksum := checksum, lastQuality := quality
      stage := .store
      pending := some { stopReason := reason, iterationsDone := g.iteration, checksumOk := checksum,
                        quality := quality } } := by
  simp only [evaluated, h]

/-- Without a stop the next iteration begins (R103). -/
theorem Engine.evaluated_continue (h : stopDecision pr g.iteration (nextStreak g.streak checksum) quality = none) :
    g.evaluated pr checksum quality = { g with
      streak := nextStreak g.streak checksum, lastChecksum := checksum, lastQuality := quality
      stage := .pass1, iteration := g.iteration + 1 } := by
  simp only [evaluated, h]

end evaluated

namespace State

theorem Working.inStage_eq {s : State} {e : EngineId} {stage : Stage} {j : Job} {pr : Params}
    (h : s.Working e stage j pr) : s.inStage e stage = some (j, pr) :=
  inStage_of h.released h.stage h.bound h.found h.named h.params

/-- The end of EVALUATE changes the engine alone. -/
theorem Working.exec_endOfEvaluate {s : State} {e : EngineId} {j : Job} {pr : Params}
    (h : s.Working e .evaluate j pr) {g : Engine}
    (hg : (s.engine e).evaluated pr
      (checksumResult pr.checksumKind ((List.range pr.k).map (s.engine e).work.decision))
      (iterationQuality pr (s.engine e).work) = g) :
    exec (.endOfEvaluate e) s = .next { s with engines := s.engines.set e g } := by
  show Host.Outcome.next (s.endOfEvaluate e) = _
  rw [endOfEvaluate, h.inStage_eq, ← hg]
  rfl

end State

/-- Settles O41: each case of R103 gives the decision of `stopDecision`, and the decision gives what the engine becomes. -/
theorem evaluateDecidesStop : Obligations.EvaluateDecidesStop := by
  intro s e j pr h g n bits checksum streak
  -- The statement's `checksum` and `streak` are `checksumResult` and `nextStreak` written out.
  refine ⟨iterationQuality pr g.work, isSome_iterationQuality_iff pr g.work, fun q => iterationQuality_le, ?_⟩
  refine ⟨fun hc => ?_, fun hc hq => ?_, fun hc hq hn => ?_, fun hc hq hn => ?_⟩
  · exact h.exec_endOfEvaluate (Engine.evaluated_stop (stopDecision_checksum hc))
  · exact h.exec_endOfEvaluate (Engine.evaluated_stop (stopDecision_quality hc hq))
  · exact h.exec_endOfEvaluate (Engine.evaluated_stop ((stopDecision_limit hc hq).trans (if_pos hn)))
  · exact h.exec_endOfEvaluate (Engine.evaluated_continue ((stopDecision_limit hc hq).trans (if_neg hn)))

end Sys2Proof.Machine
end

section
/-! PROOF. The output byte by byte: the bits of a hard-decision byte (R107), the number in a soft byte (R108), and where the
regions stand. -/

namespace Sys2Proof.Machine

/-! ### The hard-decision region -/

/-- Bits set one by one where a condition holds. -/
theorem getLsbD_foldl_setBits (c : Nat → Prop) [DecidablePred c] (l : List Nat) (acc : Byte) {j : Nat} (hj : j < 8) :
    (l.foldl (fun acc b => if c b then acc ||| (1#8 <<< b) else acc) acc).getLsbD j =
      (acc.getLsbD j || (decide (j ∈ l) && decide (c j))) := by
  induction l generalizing acc with
  | nil => simp
  | cons b l ih =>
    have hbit : (1#8 <<< b).getLsbD j = decide (j = b) := by
      simp only [BitVec.getLsbD_shiftLeft, BitVec.getLsbD_one]
      grind
    rw [List.foldl_cons, ih]
    by_cases hb : c b
    · rw [if_pos hb, BitVec.getLsbD_or, hbit]
      grind
    · rw [if_neg hb]
      grind

theorem getLsbD_hardByte (k : Nat) (w : WorkingValues) (n : Nat) {b : Nat} (hb : b < 8) :
    (hardByte k w n).getLsbD b = (decide (8 * n + b < k) && w.decision (8 * n + b)) := by
  rw [hardByte, getLsbD_foldl_setBits (fun b => 8 * n + b < k ∧ w.decision (8 * n + b) = true) _ _ hb]
  simp [hb]

/-! ### The soft region -/

theorem softOutputValue_bounds (w : WorkingValues) (i : Nat) :
    -127 ≤ softOutputValue w i ∧ softOutputValue w i ≤ 127 := by
  unfold softOutputValue
  split <;> omega

theorem softOutputValue_neg_iff (w : WorkingValues) (i : Nat) : softOutputValue w i < 0 ↔ w.decision i = true := by
  unfold softOutputValue
  split
  · next hd => exact iff_of_true (by omega) hd
  · next hd => exact iff_of_false (by omega) hd

/-- The byte of an information value is its soft value as a signed byte. -/
theorem toInt_softByte {k : Nat} (w : WorkingValues) {i : Nat} (h : i < k) :
    (softByte k w i).toInt = softOutputValue w i := by
  have ⟨hlo, hhi⟩ := softOutputValue_bounds w i
  rw [softByte, if_pos h, BitVec.toInt_ofInt_eq_self (by decide) (by omega) (by omega)]

theorem softByte_padding {k : Nat} (w : WorkingValues) {i : Nat} (h : k ≤ i) : softByte k w i = 0#8 :=
  if_neg (Nat.not_lt.2 h)

/-! ### The regions of the output -/

section outputBytes
variable (pr : Params) (w : WorkingValues)

theorem length_outputBytes : (outputBytes pr w).length = hardBytes pr.k + softBytes pr.k pr.softOutput := by
  simp [outputBytes]

theorem getD_outputBytes_hard {n : Nat} (h : n < hardBytes pr.k) :
    (outputBytes pr w).getD n 0 = hardByte pr.k w n := by
  rw [outputBytes, List.getD_append _ _ _ _ (by simpa using h)]
  simp [h]

theorem getD_outputBytes_soft {i : Nat} (h : i < softBytes pr.k pr.softOutput) :
    (outputBytes pr w).getD (hardBytes pr.k + i) 0 = softByte pr.k w i := by
  rw [outputBytes, List.getD_append_right _ _ _ _ (by simp)]
  simp [h]

end outputBytes

/-- Settles O44: each byte of the output is a `hardByte` or a `softByte`, whose bits and number are known. -/
theorem outputRegions : Obligations.OutputRegions := by
  intro pr w out H decision
  refine ⟨length_outputBytes pr w, fun i hi => ?_, fun hsoft => ?_⟩
  · have hbyte : out.getD (i / 8) 0 = hardByte pr.k w (i / 8) :=
      getD_outputBytes_hard pr w (Nat.div_lt_of_lt_mul hi)
    rw [hbyte, getLsbD_hardByte _ _ _ (Nat.mod_lt i (by decide)), Nat.div_add_mod]
    rfl
  · have hbyte {i : Nat} (hi : i < 4 * ((pr.k + 3) / 4)) : out.getD (H + i) 0 = softByte pr.k w i :=
      getD_outputBytes_soft pr w (by rwa [softBytes, if_pos hsoft])
    refine ⟨fun i hi => ?_, fun i hk hi => ?_⟩
    · have ⟨hlo, hhi⟩ := softOutputValue_bounds w i
      rw [hbyte (by omega), toInt_softByte w hi]
      exact ⟨hlo, hhi, softOutputValue_neg_iff w i⟩
    · rw [hbyte hi, softByte_padding w hk]

end Sys2Proof.Machine
end

section
/-! PROOF. ABORT by the state of the job it finds (Table 6-1): the one event that frees a job with its ties (R15) joined with
what the same event does to the owner's port unit, and what the job table answers in each state (R116 to R120). -/

namespace Sys2Proof

theorem PerPort.set_get {α : Type} (x : PerPort α) (p : Port) : x.set p (x.get p) = x := by
  cases p <;> rfl

end Sys2Proof

namespace Sys2Proof.Machine

namespace State

/-! ### Freeing a job as one event (R15) -/

/-- The freeing undoes the tie that the job's state holds and keeps the other two. -/
theorem freeJob_eq_freed (s : State) (j : Job) : s.freeJob j = s.freed j id := by
  -- A tie that stays is a queue or a port unit written back as it stands.
  have hqueues : s.queues.set j.owner (s.queue j.owner) = s.queues := PerPort.set_get ..
  have hports : s.ports.set j.owner (s.port j.owner) = s.ports := PerPort.set_get ..
  cases hph : j.phase with
  | staging | queued | decoding | aborting | held | delivering =>
    simp only [freeJob, untie, freed, Job.isStaging, Job.isQueued, Job.isDelivering, hph, Bool.false_eq_true, if_true,
      if_false, id, hqueues, hports]
    rfl

/-- What the freeing event does to the owner's port unit joins the undoing of the ties. -/
theorem modPort_freeJob (s : State) (j : Job) (f : PortUnit → PortUnit) :
    (s.freeJob j).modPort j.owner f = s.freed j f := by
  rw [freeJob_eq_freed]
  simp only [modPort, freed, PerPort.get_set_self, PerPort.set_set, id]

/-! ### ABORT at the job table (Table 6-1) -/

/-- An ABORT that passes the port unit is answered by the job table (R165). -/
theorem PassesPort.exec_abort {s : State} {p : Port} {reserved : BitVec 24} {bus : WriteParity}
    (h : s.PassesPort p reserved 3 bus) :
    exec (.abort p reserved bus) s = .next ((s.jobAbort p).answer p (.wrote true false)) :=
  congrArg Host.Outcome.next h.writeAccess_eq

theorem jobAbort_of_findJob_none {s : State} {p : Port} (h : s.findJob p (s.namedTag p) = none) :
    s.jobAbort p = s.respond p .noJob codeAbort (s.namedTag p) 0 0 0 := by
  simp only [jobAbort, h]

section found
variable {s : State} {p : Port} {j : Job} (h : s.findJob p (s.namedTag p) = some j)
include h

/-- A job that no engine holds is freed (R118). -/
theorem jobAbort_of_not_onEngine (hj : j.onEngine = false) :
    s.jobAbort p = (s.freeJob j).respond p .ok codeAbort (s.namedTag p) (stateWord j.phase) 0 0 := by
  simp only [jobAbort, h]
  cases hph : j.phase with
  | decoding clamp input e | aborting clamp input e => simp [Job.onEngine, Job.engine, hph] at hj
  | staging | queued | held | delivering => rfl

/-- A DECODING job becomes ABORTING (R119). -/
theorem jobAbort_of_decoding {clamp : Nat} {input : List Page} {e : EngineId}
    (hph : j.phase = .decoding clamp input e) :
    s.jobAbort p = (s.modJob p (s.namedTag p) Job.toAborting).respond p .accepted codeAbort (s.namedTag p) 3
      (e.code.setWidth 32) 0 := by
  simp only [jobAbort, h, hph]
  rfl

/-- An ABORTING job is only answered (R120). -/
theorem jobAbort_of_aborting {clamp : Nat} {input : List Page} {e : EngineId}
    (hph : j.phase = .aborting clamp input e) :
    s.jobAbort p = s.respond p .accepted codeAbort (s.namedTag p) 4 (e.code.setWidth 32) 0 := by
  simp only [jobAbort, h, hph]
  rfl

end found

/-- The change of a DECODING job to ABORTING, as the one live job of its identity (R6, R119). -/
theorem IdsDistinct.modJob_toAborting {s : State} (h : s.IdsDistinct) {p : Port} {t : Tag} {j : Job}
    (hj : s.findJob p t = some j) {clamp : Nat} {input : List Page} {e : EngineId}
    (hph : j.phase = .decoding clamp input e) :
    s.modJob p t Job.toAborting = { s with jobs := s.jobs.map fun k =>
      if k.owner = p ∧ k.tag = t then { j with phase := .aborting clamp input e, abortRequested := true } else k } := by
  have haborting : j.toAborting = { j with phase := .aborting clamp input e, abortRequested := true } := by
    simp only [Job.toAborting, hph]
  rw [modJob, h.map_isFor hj, haborting]

end State

/-- Settles O25: the job table's answer in each state of Table 6-1, where a freed job's response joins the undoing of its
ties. -/
theorem abortAnswersByState : Obligations.AbortAnswersByState := by
  intro s p reserved bus hpass hids tag
  refine ⟨fun hnone => ?_, fun j hj => ⟨fun hfree => ?_, fun clamp input e hph => ?_, fun clamp input e hph => ?_⟩⟩
  · rw [hpass.exec_abort, State.jobAbort_of_findJob_none hnone, State.answer_respond]
    rfl
  · obtain ⟨-, rfl, -⟩ := State.findJob_some hj
    rw [hpass.exec_abort, State.jobAbort_of_not_onEngine hj hfree, State.answer_respond, ← State.modPort_freeJob]
    rfl
  · rw [hpass.exec_abort, State.jobAbort_of_decoding hj hph, State.answer_respond,
      hids.modJob_toAborting (t := s.namedTag p) hj hph]
    rfl
  · rw [hpass.exec_abort, State.jobAbort_of_aborting hj hph, State.answer_respond]
    rfl

end Sys2Proof.Machine
end

section
/-! PROOF. The client's two commands on a completed job: COLLECT by the state of the job and the window (Table 7-3, R141 and
R142), and RELEASE, which frees the jobs that have an outcome (R150). -/

namespace Sys2Proof.Machine

/-- RESP2 of COLLECT as a sum of its two fields (Table 10-6). -/
theorem clampEngineWord_eq (clamp : Nat) (engine : BitVec 1) :
    clampEngineWord clamp engine = BitVec.ofNat 32 (clamp % 65536 + 65536 * engine.toNat) := by
  refine BitVec.eq_of_toNat_eq ?_
  rw [toNat_clampEngineWord, BitVec.toNat_ofNat]
  omega

namespace State

/-! ### COLLECT at the job table (Table 7-3) -/

/-- A COLLECT that passes the port unit is answered by the job table (R165). -/
theorem PassesPort.exec_collect {s : State} {p : Port} {reserved : BitVec 24} {bus : WriteParity}
    (h : s.PassesPort p reserved 4 bus) :
    exec (.collect p reserved bus) s = .next ((s.jobCollect p).answer p (.wrote true false)) :=
  congrArg Host.Outcome.next h.writeAccess_eq

theorem jobCollect_of_findJob_none {s : State} {p : Port} (h : s.findJob p (s.namedTag p) = none) :
    s.jobCollect p = s.respond p .noJob codeCollect (s.namedTag p) 0 0 0 := by
  simp only [jobCollect, h]

section found
variable {s : State} {p : Port} {j : Job} (h : s.findJob p (s.namedTag p) = some j)
include h

/-- A job that is not triggered yet, or that an abort is ending, is refused (R145). -/
theorem jobCollect_of_staging_or_aborting (hj : j.isStaging = true ∨ j.isAborting = true) :
    s.jobCollect p = s.respond p .wrongState codeCollect (s.namedTag p) (stateWord j.phase) 0 0 := by
  simp only [jobCollect, h]
  cases hph : j.phase with
  | staging | aborting => rfl
  | queued | decoding | held | delivering => simp [Job.isStaging, Job.isAborting, hph] at hj

/-- A job whose outcome is still to come (R145). -/
theorem jobCollect_of_queued_or_decoding (hj : j.isQueued = true ∨ (j.onEngine = true ∧ j.isAborting = false)) :
    s.jobCollect p = s.respond p .pending codeCollect (s.namedTag p) (stateWord j.phase) 0 0 := by
  simp only [jobCollect, h]
  cases hph : j.phase with
  | queued | decoding => rfl
  | staging | aborting | held | delivering =>
    simp [Job.isQueued, Job.onEngine, Job.engine, Job.isAborting, hph] at hj

/-- A HELD job is delivered when the window is free (R142). -/
theorem jobCollect_of_held_free {o : Outcome} {d : Option Tick} {raised : Bool} (hph : j.phase = .held o d raised)
    (hwindow : (s.port p).window = none) :
    s.jobCollect p = (s.deliver p (s.namedTag p) o).respondCollected p (s.namedTag p) j.params o := by
  simp only [jobCollect, h, hph, hwindow]

/-- A HELD job stays as it is while the window maps a job (R144). -/
theorem jobCollect_of_held_busy {o : Outcome} {d : Option Tick} {raised : Bool} {mapped : Tag}
    (hph : j.phase = .held o d raised) (hwindow : (s.port p).window = some mapped) :
    s.jobCollect p = s.respond p .windowBusy codeCollect (s.namedTag p) (mapped.setWidth 32) 0 0 := by
  simp only [jobCollect, h, hph, hwindow]

/-- A job that is delivered already is answered again (R143). -/
theorem jobCollect_of_delivering {o : Outcome} (hph : j.phase = .delivering o) :
    s.jobCollect p = s.respondCollected p (s.namedTag p) j.params o := by
  simp only [jobCollect, h, hph]

end found

/-- The answer OK of COLLECT with its acknowledgement: the outcome, the clamp count and engine, the output length (R141). -/
theorem answer_respondCollected (s : State) (p : Port) (t : Tag) (pr : Params) (o : Outcome) :
    (s.respondCollected p t pr o).answer p (.wrote true false) = s.told p .ok codeCollect t (o.fields ++ 0#8)
      (BitVec.ofNat 32 (o.clampCount % 65536 + 65536 * o.engine.code.toNat)) (BitVec.ofNat 32 pr.outputLength) := by
  rw [← clampEngineWord_eq]
  exact answer_respond ..

/-- A delivery changes the one live job of its identity and the owner's window (R142). -/
theorem IdsDistinct.deliver_eq {s : State} (h : s.IdsDistinct) {p : Port} {t : Tag} {j : Job}
    (hj : s.findJob p t = some j) (o : Outcome) :
    s.deliver p t o = { s with
      jobs := s.jobs.map fun k => if k.owner = p ∧ k.tag = t then { j with phase := .delivering o } else k
      ports := s.ports.set p { s.port p with window := some t } } := by
  rw [deliver, modJob, h.map_isFor hj]
  rfl

/-! ### RELEASE at the job table (R150) -/

/-- A RELEASE that passes the port unit is answered by the job table (R165). -/
theorem PassesPort.exec_release {s : State} {p : Port} {reserved : BitVec 24} {bus : WriteParity}
    (h : s.PassesPort p reserved 5 bus) :
    exec (.release p reserved bus) s = .next ((s.jobRelease p).answer p (.wrote true false)) :=
  congrArg Host.Outcome.next h.writeAccess_eq

theorem jobRelease_of_findJob_none {s : State} {p : Port} (h : s.findJob p (s.namedTag p) = none) :
    s.jobRelease p = s.respond p .noJob codeRelease (s.namedTag p) 0 0 0 := by
  simp only [jobRelease, h]

section found
variable {s : State} {p : Port} {j : Job} (h : s.findJob p (s.namedTag p) = some j)
include h

/-- A HELD or DELIVERING job is freed. -/
theorem jobRelease_of_outcome_isSome (hj : j.outcome.isSome = true) :
    s.jobRelease p = (s.freeJob j).respond p .ok codeRelease (s.namedTag p) (stateWord j.phase) 0 0 := by
  simp only [jobRelease, h]
  cases hph : j.phase with
  | held | delivering => rfl
  | staging | queued | decoding | aborting => simp [Job.outcome, hph] at hj

/-- A job without an outcome is only answered. -/
theorem jobRelease_of_outcome_none (hj : j.outcome = none) :
    s.jobRelease p = s.respond p .wrongState codeRelease (s.namedTag p) (stateWord j.phase) 0 0 := by
  simp only [jobRelease, h]
  cases hph : j.phase with
  | staging | queued | decoding | aborting => rfl
  | held | delivering => simp [Job.outcome, hph] at hj

end found

end State

/-- Settles O27: the job table's answer in each state of Table 7-3, where the response to a delivery joins the mapping of
the window. -/
theorem collectAnswersByState : Obligations.CollectAnswersByState := by
  intro s p reserved bus hpass hids tag
  refine ⟨fun hnone => ?_, fun j hj => ?_⟩
  · rw [hpass.exec_collect, State.jobCollect_of_findJob_none hnone, State.answer_respond]
    rfl
  refine ⟨fun hstate => ?_, fun hstate => ?_, fun o d raised hph hfree => ?_, fun o d raised mapped hph hbusy => ?_,
    fun o hph => ?_⟩
  · rw [hpass.exec_collect, State.jobCollect_of_staging_or_aborting hj hstate, State.answer_respond]
    rfl
  · rw [hpass.exec_collect, State.jobCollect_of_queued_or_decoding hj hstate, State.answer_respond]
    rfl
  · have hdelivered := hids.deliver_eq (t := s.namedTag p) hj o
    rw [hpass.exec_collect, State.jobCollect_of_held_free hj hph hfree, State.answer_respondCollected,
      State.told_of_ports (congrArg State.ports hdelivered), hdelivered]
    rfl
  · rw [hpass.exec_collect, State.jobCollect_of_held_busy hj hph hbusy, State.answer_respond]
    rfl
  · rw [hpass.exec_collect, State.jobCollect_of_delivering hj hph, State.answer_respondCollected]
    rfl

/-- Settles O28: a job that has its outcome is freed, its response joined with the undoing of its ties, and every other job
is only answered. -/
theorem releaseAnswersByState : Obligations.ReleaseAnswersByState := by
  intro s p reserved bus hpass tag
  refine ⟨fun hnone => ?_, fun j hj => ⟨fun hsome => ?_, fun hnone => ?_⟩⟩
  · rw [hpass.exec_release, State.jobRelease_of_findJob_none hnone, State.answer_respond]
    rfl
  · obtain ⟨-, rfl, -⟩ := State.findJob_some hj
    rw [hpass.exec_release, State.jobRelease_of_outcome_isSome hj hsome, State.answer_respond, ← State.modPort_freeJob]
    rfl
  · rw [hpass.exec_release, State.jobRelease_of_outcome_none hj hnone, State.answer_respond]
    rfl

end Sys2Proof.Machine
end

section
/-! PROOF. The rows that are accesses of a client's port: each presents its access to the port bus, which answers it by the
first line of Table 8-1 that applies, and a stray access only marks and answers (R160). -/

namespace Sys2Proof.Machine

/-- A row that is a write does the write that it presents. -/
theorem exec_of_asWrite {c : Instr} {p : Port} {a : WordAddr} {w : Word} {bus : WriteParity}
    (h : asWrite c = some (p, a, w, bus)) (s : State) : exec c s = .next (s.writeAccess p a w bus) := by
  cases c with
  | openJob | trigger | abort | collect | release | query | portReset | badCommand | streamWord | paramWrite
  | settingsWrite | statusSet | statusClear | enableSet | enableClear | strayWrite => cases h; rfl
  | noticeRead | resultWindowRead | strayRead | grant | endOfPrime | endOfPass1 | endOfPass2 | endOfEvaluate | endOfStore
  | tick | expiry | deviceReset | powerOn | deviceResetRelease | portResetLineAssertion | portResetLineRelease => cases h

/-- A row that is a read does the read that it presents. -/
theorem exec_of_asRead {c : Instr} {p : Port} {a : WordAddr} {par : Bool} (h : asRead c = some (p, a, par)) (s : State) :
    exec c s = .next (s.readAccess p a par) := by
  cases c with
  | noticeRead | resultWindowRead | strayRead => cases h; rfl
  | openJob | trigger | abort | collect | release | query | portReset | badCommand | streamWord | paramWrite
  | settingsWrite | statusSet | statusClear | enableSet | enableClear | strayWrite | grant | endOfPrime | endOfPass1
  | endOfPass2 | endOfEvaluate | endOfStore | tick | expiry | deviceReset | powerOn | deviceResetRelease
  | portResetLineAssertion | portResetLineRelease => cases h

namespace State

/-- Lines 1 to 3 of Table 8-1 close the port exactly when it does not perform. -/
theorem portClosed_of_not_performs {s : State} {p : Port} (h : ¬ s.Performs p) : s.portClosed p = true := by
  by_contra hopen
  obtain ⟨hreleased, henabled, hline⟩ := (s.portClosed_false_iff p).1 (Bool.eq_false_iff.2 hopen)
  exact h ⟨hreleased, henabled, hline⟩

/-! ### An answer as a change of the one port unit -/

theorem answer_eq_withPort (s : State) (p : Port) (ans : BusAnswer) :
    s.answer p ans = s.withPort p { s.port p with bus := ans } := rfl

/-- A mark and the answer to the access that made it. -/
theorem answer_setStatus (s : State) (p : Port) (b : StatusBit) (ans : BusAnswer) :
    (s.setStatus p b).answer p ans = s.withPort p { (s.port p).setBit b with bus := ans } := by
  rw [setStatus_eq, answer_eq, modPort_modPort]
  rfl

/-! ### Performed accesses -/

/-- A performed read ends in the normal answer, whatever it has changed before. -/
theorem performRead_eq_answer (s : State) (p : Port) (target : ReadTarget) :
    ∃ (t : State) (data : Word), s.performRead p target = t.answer p (goodRead data) := by
  cases target with
  | notice =>
    cases hn : (s.port p).notices with
    | nil => exact ⟨_, _, performRead_notice_empty hn⟩
    | cons n rest => exact ⟨_, _, performRead_notice_cons hn⟩
  | window o =>
    cases hw : s.windowWord p o with
    | none => exact ⟨_, _, performRead_window_none hw⟩
    | some w => exact ⟨_, _, performRead_window_some hw⟩
  | ident | settings | status | enable | enabledStatus | param | resp | stray => exact ⟨_, _, rfl⟩

theorem bus_performRead (s : State) (p : Port) (target : ReadTarget) :
    ∃ data, ((s.performRead p target).port p).bus = .read false data (generatedParity data) := by
  obtain ⟨t, data, ht⟩ := s.performRead_eq_answer p target
  exact ⟨data, by rw [ht, answer_eq, port_modPort_self]; rfl⟩

@[simp] theorem performWrite_stray_good (s : State) (p : Port) (w : Word) :
    s.performWrite p .stray w true = s.setStatus p .strayWrite := rfl

/-- A stray read returns 0, with each parity bit at 1 (R160). -/
theorem performRead_stray (s : State) (p : Port) :
    s.performRead p .stray = (s.setStatus p .strayRead).answer p (.read false 0#32 0xF#4) := by
  have hparity : generatedParity 0#32 = 0xF#4 := by decide
  rw [← hparity]
  rfl

end State

/-- Settles O3: each line of Table 8-1 is a lemma of the two accesses, and its answer is a change of the port unit. -/
theorem accessAnsweredByTable81 : Obligations.AccessAnsweredByTable81 := by
  refine ⟨fun c s p a w bus hc => ?_, fun c s p a par hc => ?_⟩
  · rw [exec_of_asWrite hc]
    refine ⟨fun hclosed => ?_, fun hperforms haddr => ?_, fun hperforms haddr => ⟨_, rfl, ?_⟩⟩
    · rw [State.writeAccess_closed (State.portClosed_of_not_performs hclosed), State.answer_eq_withPort]
    · rw [State.writeAccess_badAddress hperforms.portClosed_eq_false w haddr, State.answer_setStatus]
    · rw [State.writeAccess_performed hperforms.portClosed_eq_false w haddr, State.answer_eq_withPort]
  · rw [exec_of_asRead hc]
    refine ⟨fun hclosed => ?_, fun hperforms haddr => ?_, fun hperforms haddr => ?_⟩
    · rw [State.readAccess_closed (State.portClosed_of_not_performs hclosed), State.answer_eq_withPort]
      rfl
    · rw [State.readAccess_badAddress hperforms.portClosed_eq_false haddr, State.answer_setStatus]
      rfl
    · obtain ⟨data, hbus⟩ := s.bus_performRead p (readTarget a)
      exact ⟨_, data, congrArg _ (State.readAccess_performed hperforms.portClosed_eq_false haddr), rfl, hbus⟩

/-- Settles O14: a stray access is performed as a mark alone, and its answer joins the mark. -/
theorem strayAccessesOnlyMark : Obligations.StrayAccessesOnlyMark := by
  refine ⟨fun c s p a w bus hc hstray hgood => ?_, fun c s p a par hc hstray hread => ?_⟩
  · obtain ⟨hperforms, haddr, hdata⟩ := hgood
    rw [exec_of_asWrite hc, State.writeAccess_performed hperforms.portClosed_eq_false w haddr, hstray, hdata,
      State.performWrite_stray_good, State.answer_setStatus]
    rfl
  · obtain ⟨hperforms, haddr⟩ := hread
    rw [exec_of_asRead hc, State.readAccess_performed hperforms.portClosed_eq_false haddr, hstray, State.performRead_stray,
      State.answer_setStatus]

end Sys2Proof.Machine
end

section
/-! PROOF. The CMD write as the port unit tests it (R164): a refusal for parity or taint, a code that names no command, and
a command taken at the job table. -/

namespace Sys2Proof.Machine

/-- Every word is a CMD word of some code. -/
theorem exists_eq_cmdWord (w : Word) : ∃ reserved code, w = cmdWord reserved code := by
  refine ⟨w.extractLsb' 8 24, w.extractLsb' 0 8, BitVec.eq_of_toNat_eq ?_⟩
  have := w.isLt
  simp only [cmdWord, toNat_append_eq_add, BitVec.extractLsb'_toNat, Nat.shiftRight_eq_div_pow]
  omega

/-- The response code stands in bits [4:0] of RESP0 (Table 10-5). -/
theorem toNat_resp0_mod_32 (code : RespCode) (cmd : BitVec 8) (tag : Tag) :
    (resp0 code cmd tag).toNat % 32 = code.value.toNat := by
  have := code.value.isLt
  simp only [resp0, toNat_append_eq_add]
  omega

/-- The port unit after a CMD write refused CMD_PARITY (R164); `good` is the data parity of the word. -/
def PortUnit.parityRefused (u : PortUnit) (code : BitVec 8) (good : Bool) : PortUnit :=
  { (if good then u else u.setBit .dataParity).told .cmdParity code (tagField u.param[0]) (cmdParityWord good u.taint) 0 0
    with taint := false }

namespace State

theorem answer_refuseParity (s : State) (p : Port) (code : BitVec 8) (good : Bool) :
    (s.refuseParity p code good).answer p (.wrote true false) = s.withPort p ((s.port p).parityRefused code good) := by
  cases good <;>
    simp only [refuseParity, setStatus_eq, respond_eq, answer_eq, modPort_modPort, Bool.false_eq_true, if_true, if_false] <;>
    rfl

/-- A CMD write that the port performs. -/
theorem Performs.writeAccess_cmd {s : State} {p : Port} (h : s.Performs p) {bus : WriteParity}
    (haddr : addrParityGood cmdAddr true bus.addr = true) (w : Word) :
    s.writeAccess p cmdAddr w bus =
      (s.commandWrite p w (dataParityGood w bus.data)).answer p (.wrote true false) := by
  rw [writeAccess_performed h.portClosed_eq_false w haddr, writeTarget_cmdAddr, performWrite_cmd]
  rfl

end State

/-- Settles O6: the tests of `State.commandWrite` in turn, on the CMD word of a code. -/
theorem cmdWriteTestedInOrder : Obligations.CmdWriteTestedInOrder := by
  intro c s p w bus hc hperforms haddr
  obtain ⟨reserved, code, rfl⟩ := exists_eq_cmdWord w
  rw [exec_of_asWrite hc, hperforms.writeAccess_cmd haddr, State.code_cmdWord]
  generalize dataParityGood (cmdWord reserved code) bus.data = good
  dsimp only
  refine ⟨fun hrefused => ?_, fun hgood htaint hcode => ?_, fun hgood htaint _ => ⟨_, rfl, ?_⟩⟩
  · rw [State.commandWrite_refused hrefused, State.answer_refuseParity]
    rfl
  · rw [hgood, State.commandWrite_taken htaint, State.takeCommand_bad s p hcode, State.refuseCode, State.answer_respond]
    rfl
  · rw [hgood, State.commandWrite_taken htaint, State.answer_eq_withPort]

end Sys2Proof.Machine
end

section
/-! PROOF. The words of a port unit that stand through every event but the accesses of its own client and the reset inputs:
the enables, the hold limit, the parameter words, the taint and the reset line (R129, R162, R163, R168, R182). -/

namespace Sys2Proof.Machine

/-- The standing words of a port unit. -/
def PortUnit.standing (u : PortUnit) : BitVec 6 × HoldLimit × Vector Word 6 × Bool × Bool :=
  (u.enables, u.holdLimit, u.param, u.taint, u.resetHeld)

theorem PortUnit.taint_eq_of_standing {u v : PortUnit} (h : u.standing = v.standing) : u.taint = v.taint :=
  congrArg (·.2.2.2.1) h

@[simp] theorem PortUnit.standing_pushNotice (u : PortUnit) (n : Notice) : (u.pushNotice n).standing = u.standing := by
  unfold pushNotice
  split_ifs <;> rfl

namespace State

/-- The standing words of every port. -/
def standing (s : State) (q : Port) : BitVec 6 × HoldLimit × Vector Word 6 × Bool × Bool := (s.port q).standing

variable (s : State) (p : Port) (t : Tag)

/-! ### The basic updates -/

theorem standing_modPort_ne {q : Port} (f : PortUnit → PortUnit) (h : q ≠ p) :
    (s.modPort p f).standing q = s.standing q := by
  rw [standing, standing, port_modPort_ne _ _ h]

theorem standing_modPort {f : PortUnit → PortUnit} (hf : ∀ u, (f u).standing = u.standing) :
    (s.modPort p f).standing = s.standing := by
  funext q
  by_cases h : q = p
  · rw [h, standing, standing, port_modPort_self, hf]
  · exact standing_modPort_ne _ _ _ h

@[simp] theorem standing_modEngine (e : EngineId) (f : Engine → Engine) : (s.modEngine e f).standing = s.standing := rfl
@[simp] theorem standing_modJob (f : Job → Job) : (s.modJob p t f).standing = s.standing := rfl
@[simp] theorem standing_returnPages (l : List Page) : (s.returnPages l).standing = s.standing := rfl

@[simp] theorem standing_writeArea (pages : List Page) (o : Nat) (vs : List Byte) :
    (s.writeArea pages o vs).standing = s.standing := by
  rw [writeArea_frame]
  rfl

@[simp] theorem standing_answer (ans : BusAnswer) : (s.answer p ans).standing = s.standing :=
  s.standing_modPort p fun _ => rfl

@[simp] theorem standing_setStatus (b : StatusBit) : (s.setStatus p b).standing = s.standing :=
  s.standing_modPort p fun _ => rfl

@[simp] theorem standing_respond (code : RespCode) (cmd : BitVec 8) (r1 r2 r3 : Word) :
    (s.respond p code cmd t r1 r2 r3).standing = s.standing :=
  s.standing_modPort p fun _ => rfl

@[simp] theorem standing_pushNotice (n : Notice) : (s.pushNotice p n).standing = s.standing :=
  s.standing_modPort p fun u => u.standing_pushNotice n

@[simp] theorem standing_modChecker (f : Checker → Checker) : (s.modChecker p f).standing = s.standing :=
  s.standing_modPort p fun _ => rfl

@[simp] theorem standing_vacateSlot : (s.vacateSlot p).standing = s.standing := s.standing_modPort p fun _ => rfl

@[simp] theorem standing_freeJob (j : Job) : (s.freeJob j).standing = s.standing := by
  have huntie (s : State) : (s.untie j).standing = s.standing := by
    unfold untie
    split
    · exact standing_vacateSlot ..
    · rfl
    · exact standing_modPort _ _ fun _ => rfl
    all_goals rfl
  exact huntie _

/-! ### Staging -/

@[simp] theorem standing_triggerJob : (s.triggerJob p t).standing = s.standing := by
  unfold triggerJob
  split
  · split
    · exact standing_vacateSlot ..
    · rfl
  · rfl

@[simp] theorem standing_storeStreamWord (o : Nat) (w : Word) : (s.storeStreamWord p t o w).standing = s.standing := by
  unfold storeStreamWord
  split
  · exact standing_writeArea ..
  · rfl

@[simp] theorem standing_acceptStreamWord (st : Stream) (w : Word) :
    (s.acceptStreamWord p t st w).standing = s.standing := by
  unfold acceptStreamWord
  dsimp only
  split <;> simp

@[simp] theorem standing_streamWord (st : Stream) (w : Word) (good : Bool) :
    (s.streamWord p st w good).standing = s.standing := by
  unfold streamWord
  split
  · dsimp only
    split <;> simp
  · split_ifs <;> simp

/-! ### Commands -/

@[simp] theorem standing_createJob (r : OpenRecord) : (s.createJob p r).standing = s.standing :=
  standing_modPort _ p fun _ => rfl

@[simp] theorem standing_jobOpen : (s.jobOpen p).standing = s.standing := by
  unfold jobOpen
  dsimp only
  split <;> simp

@[simp] theorem standing_jobTrigger : (s.jobTrigger p).standing = s.standing := by
  unfold jobTrigger triggerStaging
  dsimp only
  split
  · simp
  · split
    · split <;> simp
    all_goals simp

@[simp] theorem standing_jobAbort : (s.jobAbort p).standing = s.standing := by
  unfold jobAbort
  dsimp only
  split
  · simp
  · split <;> simp

@[simp] theorem standing_deliver (o : Outcome) : (s.deliver p t o).standing = s.standing :=
  standing_modPort _ p fun _ => rfl

@[simp] theorem standing_respondCollected (pr : Params) (o : Outcome) :
    (s.respondCollected p t pr o).standing = s.standing :=
  standing_respond ..

@[simp] theorem standing_jobCollect : (s.jobCollect p).standing = s.standing := by
  unfold jobCollect
  dsimp only
  split
  · simp
  · split
    iterate 4 simp
    · split <;> simp
    · simp

@[simp] theorem standing_jobRelease : (s.jobRelease p).standing = s.standing := by
  unfold jobRelease
  dsimp only
  split
  · simp
  · split <;> simp

@[simp] theorem standing_jobQuery : (s.jobQuery p).standing = s.standing := by
  unfold jobQuery
  dsimp only
  split <;> simp

/-! ### Port reset (R127) -/

@[simp] theorem standing_resetJobs : (s.resetJobs p).standing = s.standing := by
  have hfreed (l : List Job) (s : State) : (l.foldl freeJob s).standing = s.standing := by
    induction l generalizing s with
    | nil => rfl
    | cons j l ih => rw [List.foldl_cons, ih, standing_freeJob]
  exact hfreed _ s

theorem standing_portReset_ne {q : Port} (h : q ≠ p) : (s.portReset p).standing q = s.standing q := by
  rw [portReset, standing_modPort_ne _ _ _ h, standing_resetJobs]

theorem taint_portReset : ((s.portReset p).port p).taint = false := by
  rw [portReset, port_modPort_self]
  rfl

/-! ### The dispatcher, the engines and the hold timer -/

@[simp] theorem standing_grant : s.grant.standing = s.standing := by
  have hgrantTo (e : EngineId) (p : Port) (t : Tag) : (s.grantTo e p t).standing = s.standing := by
    unfold grantTo
    split
    · split <;> rfl
    · rfl
  unfold grant
  split
  · rfl
  · split
    · exact hgrantTo ..
    · rfl

@[simp] theorem standing_abortReport (e : EngineId) (j : Job) : (s.abortReport e j).standing = s.standing := by
  simp [abortReport]

@[simp] theorem standing_completionReport (e : EngineId) (j : Job) (po : PendingOutcome) :
    (s.completionReport e j po).standing = s.standing := by
  simp [completionReport]

/-- A boundary keeps what the way on keeps (R91). -/
theorem standing_boundary (e : EngineId) (j : Job) {proceed : State → State}
    (hproceed : ∀ s, (proceed s).standing = s.standing) : (s.boundary e j proceed).standing = s.standing := by
  cases habort : j.abortRequested with
  | true => rw [boundary_yes habort, standing_abortReport, standing_modEngine]
  | false => rw [boundary_no habort, hproceed, standing_modEngine]

@[simp] theorem standing_endOfPrime (e : EngineId) : (s.endOfPrime e).standing = s.standing := by
  unfold endOfPrime
  split
  · exact standing_boundary _ e _ fun _ => rfl
  · rfl

@[simp] theorem standing_endOfPass1 (e : EngineId) : (s.endOfPass1 e).standing = s.standing := by
  unfold endOfPass1
  split
  · exact standing_boundary _ e _ fun _ => rfl
  · rfl

@[simp] theorem standing_endOfPass2 (e : EngineId) : (s.endOfPass2 e).standing = s.standing := by
  unfold endOfPass2
  split
  · exact standing_boundary _ e _ fun _ => rfl
  · rfl

@[simp] theorem standing_endOfEvaluate (e : EngineId) : (s.endOfEvaluate e).standing = s.standing := by
  unfold endOfEvaluate
  split <;> rfl

@[simp] theorem standing_endOfStore (e : EngineId) : (s.endOfStore e).standing = s.standing := by
  unfold endOfStore
  split
  · exact (standing_boundary _ e _ fun s => s.standing_completionReport ..).trans (s.standing_writeArea ..)
  · rfl

@[simp] theorem standing_tickOnce : s.tickOnce.standing = s.standing := by
  unfold tickOnce
  split <;> rfl

@[simp] theorem standing_expireJob : (s.expireJob p t).standing = s.standing := by
  unfold expireJob
  split
  · split <;> simp
  · rfl

@[simp] theorem standing_releaseDeviceReset (prof1 prof0 : Bool) :
    (s.releaseDeviceReset prof1 prof0).standing = s.standing := by
  unfold releaseDeviceReset
  split <;> rfl

/-! ### Accesses -/

/-- Only PORT_RESET changes the standing words, and only its own port's. -/
theorem standing_takeCommand {code : BitVec 8} {q : Port} (h : q ≠ p ∨ code ≠ codePortReset) :
    (s.takeCommand p code).standing q = s.standing q := by
  unfold takeCommand
  split_ifs with _ _ _ _ _ _ hreset
  iterate 6 simp
  · rw [jobPortReset]
    simp only [standing_respond]
    exact s.standing_portReset_ne p (h.resolve_right (not_not_intro hreset))
  · simp [refuseCode]

theorem standing_commandWrite_ne {q : Port} (h : q ≠ p) (w : Word) (good : Bool) :
    (s.commandWrite p w good).standing q = s.standing q := by
  have hrefused (code : BitVec 8) : (s.refuseParity p code good).standing q = s.standing q := by
    cases good <;> simp [refuseParity, standing_modPort_ne _ _ _ h]
  unfold commandWrite
  dsimp only
  split
  · exact hrefused _
  · exact s.standing_takeCommand p (.inl h)

/-- A performed write to a word of the port unit itself, of either data parity, changes that unit alone. -/
theorem performWrite_own {target : WriteTarget} (w : Word) (good : Bool) (hc : target ≠ .cmd)
    (hs : ∀ st, target ≠ .stream st) (hx : target ≠ .stray) : s.performWrite p target w good =
      s.modPort p fun u => if good then u.writeWord target w else (u.badWrite target).setBit .dataParity := by
  cases good
  · exact performWrite_badWord s p w hc hs hx
  · exact performWrite_word s p w hc hs hx

theorem standing_performWrite_ne {q : Port} (h : q ≠ p) (target : WriteTarget) (w : Word) (good : Bool) :
    (s.performWrite p target w good).standing q = s.standing q := by
  cases target with
  | cmd => exact s.standing_commandWrite_ne p h w good
  | stream st => rw [performWrite_stream, standing_streamWord]
  | stray => cases good <;> simp [performWrite]
  | settings | statusSet | statusClear | enableSet | enableClear | param =>
    rw [performWrite_own, standing_modPort_ne _ _ _ h] <;> nofun

theorem standing_writeAccess_ne {q : Port} (h : q ≠ p) (a : WordAddr) (w : Word) (bus : WriteParity) :
    (s.writeAccess p a w bus).standing q = s.standing q := by
  unfold writeAccess
  dsimp only
  split_ifs
  · simp
  · simp
  · rw [standing_answer, standing_performWrite_ne _ _ h]

variable {p} in
/-- A write that the port does not perform changes no standing word. -/
theorem standing_writeAccess_refused {a : WordAddr} {bus : WriteParity}
    (h : ¬ (s.Performs p ∧ addrParityGood a true bus.addr = true)) (w : Word) :
    (s.writeAccess p a w bus).standing = s.standing := by
  by_cases hperforms : s.Performs p
  · have haddr := Bool.eq_false_iff.2 fun haddr => h ⟨hperforms, haddr⟩
    rw [writeAccess_badAddress hperforms.portClosed_eq_false w haddr, standing_answer, standing_setStatus]
  · rw [writeAccess_closed (portClosed_of_not_performs hperforms), standing_answer]

@[simp] theorem standing_performRead (target : ReadTarget) : (s.performRead p target).standing = s.standing := by
  have hpop (rest : List Notice) : (s.modPort p fun u => { u with notices := rest }).standing = s.standing :=
    s.standing_modPort p fun _ => rfl
  unfold performRead
  split
  · split <;> simp [hpop]
  · split <;> simp
  all_goals simp

@[simp] theorem standing_readAccess (a : WordAddr) (par : Bool) : (s.readAccess p a par).standing = s.standing := by
  unfold readAccess
  split_ifs <;> simp

end State

end Sys2Proof.Machine
end

section
/-! PROOF. The parameter taint (R163): what a performed write leaves of it, target by target, and that beside the writes
only the reset inputs change it. -/

namespace Sys2Proof.Machine

/-! ### The addresses of CMD and of the parameter words are the only ones that reach them -/

theorem eq_wordAddrOf {a : WordAddr} {o : Nat} (h : byteOffset a = o) : a = wordAddrOf o := by
  refine BitVec.eq_of_toNat_eq ?_
  have := a.isLt
  simp only [byteOffset] at h
  simp only [wordAddrOf, BitVec.toNat_ofNat]
  omega

theorem eq_cmdAddr_of_writeTarget {a : WordAddr} (h : writeTarget a = .cmd) : a = cmdAddr := by
  refine eq_wordAddrOf ?_
  simp only [writeTarget, ite_eq_iff, reduceCtorEq, and_false, and_true, false_or, or_false] at h
  omega

theorem eq_paramAddr_of_writeTarget {a : WordAddr} {i : Fin 6} (h : writeTarget a = .param i) : a = paramAddr i := by
  refine eq_wordAddrOf ?_
  simp only [writeTarget, ite_eq_iff, reduceCtorEq, and_false, false_or, or_false, WriteTarget.param.injEq, Fin.ext_iff,
    Fin.coe_ofNat_eq_mod] at h
  omega

/-! ### Writes -/

/-- The taint after a performed write of a target; `good` is the data parity of the word. -/
def WriteTarget.taintAfter (target : WriteTarget) (good taint : Bool) : Bool :=
  match target with
  | .cmd => false
  | .param _ => !good || taint
  | .settings | .statusSet | .statusClear | .enableSet | .enableClear | .stream _ | .stray => taint

namespace State

theorem taint_eq_of_standing {s t : State} {q : Port} (h : s.standing q = t.standing q) :
    (s.port q).taint = (t.port q).taint :=
  PortUnit.taint_eq_of_standing h

theorem taint_modPort (s : State) (p q : Port) {f : PortUnit → PortUnit} (hf : ∀ u, (f u).taint = u.taint) :
    ((s.modPort p f).port q).taint = (s.port q).taint := by
  by_cases h : q = p
  · rw [h, port_modPort_self, hf]
  · rw [port_modPort_ne _ _ h]

/-- A performed CMD write leaves the taint clear: a refusal for parity clears it, and a command is taken with it clear. -/
theorem taint_commandWrite (s : State) (p : Port) (w : Word) (good : Bool) :
    ((s.commandWrite p w good).port p).taint = false := by
  obtain ⟨reserved, code, rfl⟩ := exists_eq_cmdWord w
  by_cases hrefused : good = false ∨ (s.port p).taint = true
  · rw [commandWrite_refused hrefused, refuseParity, taint_eq_of_standing (congrFun (standing_respond ..) p),
      port_modPort_self]
  obtain ⟨rfl, htaint⟩ : good = true ∧ (s.port p).taint = false := by simpa using hrefused
  rw [commandWrite_taken htaint]
  by_cases hreset : code = codePortReset
  · rw [hreset, takeCommand_portReset, jobPortReset, taint_eq_of_standing (congrFun (standing_respond ..) p),
      taint_portReset]
  · rw [taint_eq_of_standing (s.standing_takeCommand p (.inr hreset)), htaint]

theorem taint_performWrite (s : State) (p : Port) (target : WriteTarget) (w : Word) (good : Bool) :
    ((s.performWrite p target w good).port p).taint = target.taintAfter good (s.port p).taint := by
  cases target with
  | cmd => exact s.taint_commandWrite p w good
  | stream st => exact taint_eq_of_standing (congrFun (s.standing_streamWord p st w good) p)
  | stray => cases good <;> exact taint_eq_of_standing (by simp [performWrite])
  | settings | statusSet | statusClear | enableSet | enableClear | param =>
    rw [performWrite_own, port_modPort_self]
    · cases good <;> rfl
    all_goals nofun

theorem Performs.taint_writeAccess {s : State} {p : Port} (h : s.Performs p) {a : WordAddr} {bus : WriteParity}
    (haddr : addrParityGood a true bus.addr = true) (w : Word) :
    ((s.writeAccess p a w bus).port p).taint =
      (writeTarget a).taintAfter (dataParityGood w bus.data) (s.port p).taint := by
  rw [writeAccess_performed h.portClosed_eq_false w haddr, taint_eq_of_standing (congrFun (standing_answer ..) p),
    taint_performWrite]

end State

/-! ### Rows -/

theorem eq_writeAccess_of_exec {c : Instr} {s t : State} {p : Port} {a : WordAddr} {w : Word} {bus : WriteParity}
    (hc : asWrite c = some (p, a, w, bus)) (hexec : exec c s = .next t) : t = s.writeAccess p a w bus :=
  (Host.Outcome.next.inj ((exec_of_asWrite hc s).symm.trans hexec)).symm

/-- The reset inputs that reset a port: its own reset line, the device reset and power-on. -/
def Instr.ResetsUnit (c : Instr) (p : Port) : Prop :=
  (∃ held, c = .portResetLineAssertion p held) ∨ (∃ held, c = .deviceReset held) ∨ c = .powerOn

theorem taint_exec_of_resetsUnit {c : Instr} {p : Port} (h : Instr.ResetsUnit c p) {s t : State}
    (hexec : exec c s = .next t) : (t.port p).taint = false := by
  obtain ⟨held, rfl⟩ | ⟨held, rfl⟩ | rfl := h
  · cases hexec
    rw [State.assertResetLine, State.port_modPort_self]
    exact s.taint_portReset p
  all_goals
    cases hexec
    cases p <;> rfl

/-- Beside the writes and the reset inputs, no row changes the taint. -/
theorem taint_exec_of_other {c : Instr} {p : Port} (hw : asWrite c = none) (hr : ¬ Instr.ResetsUnit c p) {s t : State}
    (hexec : exec c s = .next t) : (t.port p).taint = (s.port p).taint := by
  cases c with
  | openJob | trigger | abort | collect | release | query | portReset | badCommand | streamWord | paramWrite
  | settingsWrite | statusSet | statusClear | enableSet | enableClear | strayWrite => cases hw
  | deviceReset held => exact absurd (.inr (.inl ⟨held, rfl⟩)) hr
  | powerOn => exact absurd (.inr (.inr rfl)) hr
  | portResetLineAssertion q held =>
    have hne : p ≠ q := fun h => hr (.inl ⟨held, h ▸ rfl⟩)
    cases hexec
    rw [State.assertResetLine, State.port_modPort_ne _ _ hne]
    exact State.taint_eq_of_standing (s.standing_portReset_ne q hne)
  | portResetLineRelease q =>
    cases hexec
    exact s.taint_modPort q p fun _ => rfl
  | noticeRead | resultWindowRead | strayRead | grant | endOfPrime | endOfPass1 | endOfPass2 | endOfEvaluate | endOfStore
  | tick | expiry | deviceResetRelease =>
    have hstanding : t.standing = s.standing := by cases hexec; simp
    exact State.taint_eq_of_standing (congrFun hstanding p)

/-- A write changes the taint only where it clears it, as a CMD write of the port, or sets it, as a bad PARAM write. -/
theorem taint_writeAccess_of_other {s : State} {p q : Port} {a : WordAddr} {w : Word} {bus : WriteParity}
    (hcmd : ¬ (q = p ∧ a = cmdAddr ∧ s.Performs p ∧ addrParityGood a true bus.addr = true))
    (hparam : ∀ i, ¬ (q = p ∧ a = paramAddr i ∧ s.Performs p ∧ addrParityGood a true bus.addr = true ∧
      dataParityGood w bus.data = false)) :
    ((s.writeAccess q a w bus).port p).taint = (s.port p).taint := by
  by_cases hport : p = q
  swap
  · exact State.taint_eq_of_standing (s.standing_writeAccess_ne q hport a w bus)
  subst hport
  by_cases hperformed : s.Performs p ∧ addrParityGood a true bus.addr = true
  swap
  · exact State.taint_eq_of_standing (congrFun (s.standing_writeAccess_refused hperformed w) p)
  obtain ⟨hperforms, haddr⟩ := hperformed
  rw [hperforms.taint_writeAccess haddr]
  cases htarget : writeTarget a with
  | cmd => exact absurd ⟨rfl, eq_cmdAddr_of_writeTarget htarget, hperforms, haddr⟩ hcmd
  | param i =>
    have hgood : dataParityGood w bus.data = true := Bool.eq_true_of_not_eq_false fun hbad =>
      hparam i ⟨rfl, eq_paramAddr_of_writeTarget htarget, hperforms, haddr, hbad⟩
    simp [WriteTarget.taintAfter, hgood]
  | settings | statusSet | statusClear | enableSet | enableClear | stream | stray => rfl

/-- A CMD write that meets the taint is answered CMD_PARITY (R163, R164). -/
theorem code_writeAccess_of_taint {s : State} {p : Port} (h : s.Performs p) {bus : WriteParity}
    (haddr : addrParityGood cmdAddr true bus.addr = true) (htaint : (s.port p).taint = true) (w : Word) :
    ((s.writeAccess p cmdAddr w bus).port p).resp.r0.toNat % 32 = 18 := by
  obtain ⟨reserved, code, rfl⟩ := exists_eq_cmdWord w
  rw [h.writeAccess_cmd haddr, State.commandWrite_refused (.inr htaint), State.answer_refuseParity, State.port,
    State.withPort, PerPort.get_set_self]
  exact toNat_resp0_mod_32 ..

/-- Settles O8: a row is a write, whose taint is read off target by target, or a reset input, or leaves the taint. -/
theorem taintSetAndCleared : Obligations.TaintSetAndCleared := by
  intro c s t p hexec clears sets
  refine ⟨fun hclears => ?_, fun hsets => ?_, fun hclears hsets => ?_, fun w bus hc hperforms haddr htaint => ?_⟩
  · obtain ⟨w, bus, hc, hperforms, haddr⟩ | hresets := hclears
    · rw [eq_writeAccess_of_exec hc hexec, hperforms.taint_writeAccess haddr, writeTarget_cmdAddr]
      rfl
    · exact taint_exec_of_resetsUnit hresets hexec
  · obtain ⟨i, w, bus, hc, hperforms, haddr, hbad⟩ := hsets
    rw [eq_writeAccess_of_exec hc hexec, hperforms.taint_writeAccess haddr, writeTarget_paramAddr, hbad]
    rfl
  · cases hc : asWrite c with
    | none => exact taint_exec_of_other hc (fun hresets => hclears (.inr hresets)) hexec
    | some access =>
      obtain ⟨q, a, w, bus⟩ := access
      rw [eq_writeAccess_of_exec hc hexec]
      refine taint_writeAccess_of_other ?_ ?_
      · rintro ⟨rfl, rfl, hperforms, haddr⟩
        exact hclears (.inl ⟨w, bus, hc, hperforms, haddr⟩)
      · rintro i ⟨rfl, rfl, hperforms, haddr, hbad⟩
        exact hsets ⟨i, w, bus, hc, hperforms, haddr, hbad⟩
  · rw [eq_writeAccess_of_exec hc hexec]
    exact code_writeAccess_of_taint hperforms haddr htaint w

end Sys2Proof.Machine
end

section
/-! PROOF. Notices and the status family of a port unit (chapter 9): the push of a notice (R175), a read of NOTICE (R176), and
the words that set and clear the raw bits and the enables (R180, R182). -/

namespace Sys2Proof.Machine

/-! ### The bits of the status family -/

theorem getLsbD_statusWord (bits : BitVec 6) {i : Nat} (hi : i < 32) : (statusWord bits).getLsbD i = bits.getLsbD i := by
  simp [statusWord, hi]

theorem getLsbD_rawPositions (w : Word) {i : Nat} (hi : i < 5) : (rawPositions w).getLsbD i = w.getLsbD (i + 1) := by
  simp [rawPositions, hi, Nat.add_comm]

theorem getLsbD_enablePositions (w : Word) {i : Nat} (hi : i < 6) : (enablePositions w).getLsbD i = w.getLsbD i := by
  simp [enablePositions, hi]

namespace PortUnit

/-- The live bit stands below the sticky bits (R181). -/
@[simp] theorem getLsbD_statusBits_zero (u : PortUnit) : u.statusBits.getLsbD 0 = u.noticePending := by
  rw [statusBits, BitVec.getLsbD_append, if_pos Nat.zero_lt_one, BitVec.getLsbD_ofBool]
  simp

/-- The bit of NOTICE_OVERRUN is the lowest of the raw bits. -/
theorem getLsbD_raw_setBit_noticeOverrun (u : PortUnit) (i : Nat) :
    (u.setBit .noticeOverrun).raw.getLsbD i = (u.raw.getLsbD i || decide (i = 0)) := by
  simp [setBit, StatusBit.position]

@[simp] theorem has_setBit_self (u : PortUnit) (b : StatusBit) : (u.setBit b).has b = true := by
  cases b <;> simp [has, setBit, StatusBit.position]

variable (u : PortUnit) (w : Word) {i : Nat}

theorem getLsbD_raw_statusSet (hi : i < 5) :
    (u.statusSet w).raw.getLsbD i = (u.raw.getLsbD i || w.getLsbD (i + 1)) := by
  rw [statusSet, BitVec.getLsbD_or, getLsbD_rawPositions w hi]

theorem getLsbD_raw_statusClear (hi : i < 5) :
    (u.statusClear w).raw.getLsbD i = (u.raw.getLsbD i && !w.getLsbD (i + 1)) := by
  rw [statusClear, BitVec.getLsbD_and, BitVec.getLsbD_not, getLsbD_rawPositions w hi, decide_eq_true hi, Bool.true_and]

theorem getLsbD_enables_enableSet (hi : i < 6) :
    (u.enableSet w).enables.getLsbD i = (u.enables.getLsbD i || w.getLsbD i) := by
  rw [enableSet, BitVec.getLsbD_or, getLsbD_enablePositions w hi]

theorem getLsbD_enables_enableClear (hi : i < 6) :
    (u.enableClear w).enables.getLsbD i = (u.enables.getLsbD i && !w.getLsbD i) := by
  rw [enableClear, BitVec.getLsbD_and, BitVec.getLsbD_not, getLsbD_enablePositions w hi, decide_eq_true hi, Bool.true_and]

end PortUnit

/-! ### The push of a notice (R175) -/

theorem State.withPort_port (s : State) (p : Port) : s.withPort p (s.port p) = s := by
  rw [withPort, port, PerPort.set_get]

theorem State.pushNotice_eq_withPort (s : State) (p : Port) (n : Notice) :
    s.pushNotice p n = s.withPort p ((s.port p).pushNotice n) := rfl

/-- Settles O46: a push changes the one port unit, as the branches of `PortUnit.pushNotice` say. -/
theorem noticePushCases : Obligations.NoticePushCases := by
  intro s p n u
  rw [State.pushNotice_eq_withPort]
  refine ⟨fun hheld => ?_, fun hfree hfull => ⟨_, ?_, fun i _ => u.getLsbD_raw_setBit_noticeOverrun i⟩,
    fun hfree hroom => ?_⟩
  · rw [PortUnit.pushNotice_held hheld, State.withPort_port]
  · rw [PortUnit.pushNotice_full hfree hfull]
    rfl
  · rw [PortUnit.pushNotice_room hfree hroom]
    refine ⟨rfl, ?_⟩
    rw [State.port, State.withPort, PerPort.get_set_self, PortUnit.getLsbD_statusBits_zero]
    simp [PortUnit.noticePending]

/-! ### A read of NOTICE (R176) -/

theorem State.PerformedRead.exec_noticeRead {s : State} {p : Port} {par : Bool} (h : s.PerformedRead p noticeAddr par) :
    exec (.noticeRead p par) s = .next (s.performRead p .notice) := by
  rw [exec_of_asRead rfl, readAccess_performed h.performs.portClosed_eq_false h.addr, readTarget_noticeAddr]

/-- Settles O12: a performed read is `State.performRead` of the queue, one that is not performed is answered by lines 1 to 4
of Table 8-1 (O3), and a write to NOTICE is stray (O14). -/
theorem noticeReadPops : Obligations.NoticeReadPops := by
  refine ⟨fun s p par n rest hread hqueue => ?_, fun s p par hread hempty => ?_, fun s t p par hread hexec => ?_,
    fun s p w bus hgood => ?_⟩
  · rw [hread.exec_noticeRead, State.performRead_notice_cons hqueue, State.answer_eq, State.modPort_modPort]
    rfl
  · have hparity : generatedParity 0#32 = 0xF#4 := by decide
    rw [hread.exec_noticeRead, State.performRead_notice_empty hempty, State.answer_eq_withPort, ← hparity]
    rfl
  · obtain ⟨hclosed, hbadAddress, _⟩ := accessAnsweredByTable81.2 (.noticeRead p par) s p noticeAddr par rfl
    by_cases hperforms : s.Performs p
    · have haddr : addrParityGood noticeAddr false par = false := Bool.eq_false_iff.2 fun haddr => hread ⟨hperforms, haddr⟩
      cases (hbadAddress hperforms haddr).symm.trans hexec
      rw [State.port, State.withPort, PerPort.get_set_self]
      exact ⟨rfl, rfl, fun _ => (s.port p).has_setBit_self .addrParity⟩
    · cases (hclosed hperforms).symm.trans hexec
      rw [State.port, State.withPort, PerPort.get_set_self]
      exact ⟨rfl, rfl, fun h => absurd h hperforms⟩
  · exact strayAccessesOnlyMark.1 (.strayWrite p noticeAddr w bus) s p noticeAddr w bus rfl (by decide) hgood

/-! ### Writes to the words of the port unit itself -/

namespace State

section ownWrite
variable {s : State} {p : Port} {c : Instr} {a : WordAddr} {w : Word} {bus : WriteParity} {target : WriteTarget}

/-- A performed write to a word of the port unit itself changes that unit alone, as its data parity says (Table 8-3). -/
theorem Performs.exec_ownWrite (h : s.Performs p) (haddr : addrParityGood a true bus.addr = true)
    (hc : asWrite c = some (p, a, w, bus)) (ht : writeTarget a = target) (hlocal : target.crosses = false)
    (hstray : target ≠ .stray) :
    exec c s = .next (s.withPort p
      { (if dataParityGood w bus.data then (s.port p).writeWord target w
          else ((s.port p).badWrite target).setBit .dataParity) with bus := .wrote false false }) := by
  have hcmd : target ≠ .cmd := by
    rintro rfl
    cases hlocal
  have hstream (st : Stream) : target ≠ .stream st := by
    rintro rfl
    cases hlocal
  rw [exec_of_asWrite hc, writeAccess_performed h.portClosed_eq_false w haddr, ht,
    performWrite_own s p w _ hcmd hstream hstray, answer_eq, modPort_modPort, hlocal]
  rfl

theorem GoodWrite.exec_ownWrite (h : s.GoodWrite p a w bus) (hc : asWrite c = some (p, a, w, bus))
    (ht : writeTarget a = target) (hlocal : target.crosses = false) (hstray : target ≠ .stray) :
    exec c s = .next (s.withPort p { (s.port p).writeWord target w with bus := .wrote false false }) := by
  rw [h.performs.exec_ownWrite h.addr hc ht hlocal hstray, h.data]
  rfl

theorem Performs.exec_ownWrite_bad (h : s.Performs p) (haddr : addrParityGood a true bus.addr = true)
    (hbad : dataParityGood w bus.data = false) (hc : asWrite c = some (p, a, w, bus)) (ht : writeTarget a = target)
    (hlocal : target.crosses = false) (hstray : target ≠ .stray) :
    exec c s = .next (s.withPort p
      { ((s.port p).badWrite target).setBit .dataParity with bus := .wrote false false }) := by
  rw [h.exec_ownWrite haddr hc ht hlocal hstray, hbad]
  rfl

end ownWrite

/-! ### The enables through the resets (R182) -/

theorem enables_eq_of_standing {s t : State} {q : Port} (h : s.standing q = t.standing q) :
    (s.port q).enables = (t.port q).enables :=
  congrArg (·.1) h

theorem enables_portReset (s : State) (p : Port) : ((s.portReset p).port p).enables = (s.port p).enables := by
  rw [portReset, port_modPort_self]
  exact enables_eq_of_standing (congrFun (s.standing_resetJobs p) p)

/-- No command changes the enables: PORT_RESET, the one that changes standing words, keeps them. -/
theorem enables_takeCommand (s : State) (p : Port) (code : BitVec 8) :
    ((s.takeCommand p code).port p).enables = (s.port p).enables := by
  by_cases hreset : code = codePortReset
  · rw [hreset, takeCommand_portReset, jobPortReset, enables_eq_of_standing (congrFun (standing_respond ..) p),
      enables_portReset]
  · exact enables_eq_of_standing (s.standing_takeCommand p (.inr hreset))

theorem enables_refuseParity (s : State) (p : Port) (code : BitVec 8) (good : Bool) :
    ((s.refuseParity p code good).port p).enables = (s.port p).enables := by
  rw [refuseParity, enables_eq_of_standing (congrFun (standing_respond ..) p), port_modPort_self]
  cases good
  · exact enables_eq_of_standing (congrFun (s.standing_setStatus p .dataParity) p)
  · rfl

/-- No CMD write changes the enables, performed or not. -/
theorem enables_writeAccess_cmd (s : State) (p : Port) (w : Word) (bus : WriteParity) :
    ((s.writeAccess p cmdAddr w bus).port p).enables = (s.port p).enables := by
  by_cases hperformed : s.Performs p ∧ addrParityGood cmdAddr true bus.addr = true
  swap
  · exact enables_eq_of_standing (congrFun (s.standing_writeAccess_refused hperformed w) p)
  obtain ⟨hperforms, haddr⟩ := hperformed
  rw [hperforms.writeAccess_cmd haddr, enables_eq_of_standing (congrFun (standing_answer ..) p), commandWrite]
  split
  · exact s.enables_refuseParity p _ _
  · exact s.enables_takeCommand p _

end State

/-! ### STATUS_SET, STATUS_CLEAR, ENABLE_SET, ENABLE_CLEAR and ENABLE -/

/-- ENABLE stands at 0x14 (Table 10-1): it is read there, and not written. -/
theorem targets_of_enable {a : WordAddr} (ha : 4 * a.toNat = 0x14) : writeTarget a = .stray ∧ readTarget a = .enable := by
  simp [writeTarget, readTarget, byteOffset, ha]

theorem State.PerformedRead.exec_strayRead_enable {s : State} {p : Port} {a : WordAddr} {par : Bool}
    (h : s.PerformedRead p a par) (ha : readTarget a = .enable) :
    exec (.strayRead p a par) s =
      .next (s.withPort p { s.port p with bus := goodRead (statusWord (s.port p).enables) }) := by
  rw [exec_of_asRead rfl, readAccess_performed h.performs.portClosed_eq_false h.addr, ha]
  rfl

/-- A port reset keeps the enables, from its line or by command, performed or not (R182). -/
theorem enables_exec_of_portReset {c : Instr} {s t : State} {p : Port} (hexec : exec c s = .next t)
    (hreset : (∃ held, c = .portResetLineAssertion p held) ∨ (∃ reserved bus, c = .portReset p reserved bus)) :
    (t.port p).enables = (s.port p).enables := by
  obtain ⟨held, rfl⟩ | ⟨reserved, bus, rfl⟩ := hreset
  · cases hexec
    rw [State.assertResetLine, State.port_modPort_self]
    exact s.enables_portReset p
  · rw [eq_writeAccess_of_exec rfl hexec]
    exact s.enables_writeAccess_cmd p _ bus

theorem enables_exec_of_deviceReset {s t : State} {held : PerPort Bool} (hexec : exec (.deviceReset held) s = .next t)
    (p : Port) : (t.port p).enables = 0#6 := by
  cases hexec
  cases p <;> rfl

/-- Settles O10: each of the four words is a word of the port unit itself, whose write acts bit by bit; the address of ENABLE
is stray to a write (O14); the resets keep or clear the enables with the unit. -/
theorem statusAndEnableWrites : Obligations.StatusAndEnableWrites := by
  refine ⟨fun s p w bus hgood => ⟨_, ?_, fun i hi => (s.port p).getLsbD_raw_statusSet w hi⟩,
    fun s p w bus hgood => ⟨_, ?_, fun i hi => (s.port p).getLsbD_raw_statusClear w hi⟩,
    fun s p w bus hgood => ⟨_, ?_, fun i hi => (s.port p).getLsbD_enables_enableSet w hi⟩,
    fun s p w bus hgood => ⟨_, ?_, fun i hi => (s.port p).getLsbD_enables_enableClear w hi⟩,
    fun s p w bus hperforms hbad c hc haddr => ?_,
    fun s p a ha => ⟨fun w bus hgood => ?_, fun par hread => ⟨_, fun i hi => getLsbD_statusWord _ hi, ?_⟩⟩,
    fun s t p c hexec => ⟨?_, enables_exec_of_portReset hexec⟩⟩
  · exact hgood.exec_ownWrite rfl writeTarget_statusSetAddr rfl nofun
  · exact hgood.exec_ownWrite rfl writeTarget_statusClearAddr rfl nofun
  · exact hgood.exec_ownWrite rfl writeTarget_enableSetAddr rfl nofun
  · exact hgood.exec_ownWrite rfl writeTarget_enableClearAddr rfl nofun
  · simp only [List.mem_cons, List.not_mem_nil, or_false] at hc
    obtain rfl | rfl | rfl | rfl := hc
    · exact hperforms.exec_ownWrite_bad haddr hbad rfl writeTarget_statusSetAddr rfl nofun
    · exact hperforms.exec_ownWrite_bad haddr hbad rfl writeTarget_statusClearAddr rfl nofun
    · exact hperforms.exec_ownWrite_bad haddr hbad rfl writeTarget_enableSetAddr rfl nofun
    · exact hperforms.exec_ownWrite_bad haddr hbad rfl writeTarget_enableClearAddr rfl nofun
  · exact strayAccessesOnlyMark.1 (.strayWrite p a w bus) s p a w bus rfl (targets_of_enable ha).1 hgood
  · exact hread.exec_strayRead_enable (targets_of_enable ha).2
  · rintro ⟨held, rfl⟩
    exact enables_exec_of_deviceReset hexec p

end Sys2Proof.Machine
end

section
/-! PROOF. What a step can do, said once: every row of the table but the release of the device reset is a sequence of moves,
each of which changes the blocks as one event of the spec does. A law of the part is then proved move by move. -/

namespace Sys2Proof.Machine

/-! ### What an event that is no reset does to a port unit or to a working engine -/

/-- A change of a port unit that leaves the slot, the window and the bounds, and that changes neither the notices nor the raw
status of a unit whose line is held after it (R130). -/
structure PortUnit.Evolves (u v : PortUnit) : Prop where
  slot    : v.slot = u.slot
  window  : v.window = u.window
  line    : v.resetHeld = true → u.resetHeld = true ∧ v.notices = u.notices ∧ v.raw = u.raw
  notices : u.notices.length ≤ 16 → v.notices.length ≤ 16
  counts  : (∀ st, u.checker.received.get st ≤ u.checker.expected.get st) →
              ∀ st, v.checker.received.get st ≤ v.checker.expected.get st
  clamp   : u.checker.clamp ≤ 65535 → v.checker.clamp ≤ 65535

/-- The items of a port unit that a law reads, but for the notices, the raw status and the checker. -/
def PortUnit.links (u : PortUnit) : Option Tag × Option Tag × Bool := (u.slot, u.window, u.resetHeld)

namespace PortUnit.Evolves

variable {u v : PortUnit}

/-- A change of the words that no law reads. -/
theorem of_eq (hlinks : v.links = u.links) (hnotices : v.notices = u.notices) (hraw : v.raw = u.raw)
    (hchecker : v.checker = u.checker) : u.Evolves v := by
  simp only [links, Prod.mk.injEq] at hlinks
  obtain ⟨hslot, hwindow, hline⟩ := hlinks
  refine ⟨hslot, hwindow, fun h => ⟨hline ▸ h, hnotices, hraw⟩, fun h => hnotices ▸ h, ?_, fun h => hchecker ▸ h⟩
  rw [hchecker]
  exact id

/-- While the line is not held the raw status may change, and notices may leave the queue. -/
theorem of_unheld (hu : u.resetHeld = false) (hlinks : v.links = u.links)
    (hnotices : v.notices.length ≤ u.notices.length) (hchecker : v.checker = u.checker) : u.Evolves v := by
  simp only [links, Prod.mk.injEq] at hlinks
  obtain ⟨hslot, hwindow, hline⟩ := hlinks
  have hv : v.resetHeld = false := hline.trans hu
  refine ⟨hslot, hwindow, fun h => ?_, hnotices.trans, ?_, fun h => hchecker ▸ h⟩
  · rw [hv] at h
    cases h
  · rw [hchecker]
    exact id

theorem setBit (hu : u.resetHeld = false) (b : StatusBit) : u.Evolves (u.setBit b) :=
  of_unheld hu rfl le_rfl rfl

/-- A push on a held unit is discarded (R175). -/
theorem pushNotice (u : PortUnit) (n : Notice) : u.Evolves (u.pushNotice n) := by
  cases hline : u.resetHeld with
  | true =>
    rw [pushNotice_held hline]
    exact of_eq rfl rfl rfl rfl
  | false =>
    have hframe := u.pushNotice_frame n
    have hchecker : (u.pushNotice n).checker = u.checker := by rw [hframe]
    refine ⟨by rw [hframe], by rw [hframe], fun h => ?_,
      fun h => length_pushNotice h n, ?_, fun h => hchecker ▸ h⟩
    · rw [hframe] at h
      exact absurd h (by simp [hline])
    · rw [hchecker]
      exact id

/-- The words that a client writes in its own unit. -/
theorem writeWord (hu : u.resetHeld = false) (target : WriteTarget) (w : Word) : u.Evolves (u.writeWord target w) := by
  cases target <;> exact of_unheld hu rfl le_rfl rfl

theorem badWrite (hu : u.resetHeld = false) (target : WriteTarget) :
    u.Evolves ((u.badWrite target).setBit .dataParity) := by
  cases target <;> exact of_unheld hu rfl le_rfl rfl

/-- The checker works on. -/
theorem checker {c : Checker}
    (hcounts : (∀ st, u.checker.received.get st ≤ u.checker.expected.get st) → ∀ st, c.received.get st ≤ c.expected.get st)
    (hclamp : u.checker.clamp ≤ 65535 → c.clamp ≤ 65535) : u.Evolves { u with checker := c } :=
  ⟨rfl, rfl, fun h => ⟨h, rfl, rfl⟩, id, hcounts, hclamp⟩

end PortUnit.Evolves

/-! ### The checker within its bounds (R55, R56) -/

namespace Checker

theorem received_checkHalf (c : Checker) (j : Nat) (w : Word) (h : Half) :
    (c.checkHalf j w h).received = c.received ∧ (c.checkHalf j w h).expected = c.expected ∧
      (c.checkHalf j w h).clamp = c.clamp := by
  unfold checkHalf
  dsimp only
  split_ifs <;> exact ⟨rfl, rfl, rfl⟩

theorem received_checkPermWord (c : Checker) (j : Nat) (w : Word) :
    (c.checkPermWord j w).received = c.received ∧ (c.checkPermWord j w).expected = c.expected ∧
      (c.checkPermWord j w).clamp = c.clamp := by
  obtain ⟨hr, he, hc⟩ := c.received_checkHalf j w .low
  obtain ⟨hr', he', hc'⟩ := (c.checkHalf j w .low).received_checkHalf j w .high
  exact ⟨hr'.trans hr, he'.trans he, hc'.trans hc⟩

theorem received_checkSoftWord (c : Checker) (j : Nat) (w : Word) :
    (c.checkSoftWord j w).received = c.received ∧ (c.checkSoftWord j w).expected = c.expected := by
  have hbyte (c : Checker) (b : Nat) :
      (c.checkSoftByte j w b).received = c.received ∧ (c.checkSoftByte j w b).expected = c.expected := by
    unfold checkSoftByte
    split_ifs <;> exact ⟨rfl, rfl⟩
  have hfold (l : List Nat) (c : Checker) : (l.foldl (fun c b => c.checkSoftByte j w b) c).received = c.received ∧
      (l.foldl (fun c b => c.checkSoftByte j w b) c).expected = c.expected := by
    induction l generalizing c with
    | nil => exact ⟨rfl, rfl⟩
    | cons b l ih => exact ⟨(ih _).1.trans (hbyte c b).1, (ih _).2.trans (hbyte c b).2⟩
  exact hfold _ c

/-- An accepted word is counted on its stream alone (R55). -/
theorem received_accept (c : Checker) (st : Stream) (w : Word) :
    (c.accept st w).received = c.received.set st (c.received.get st + 1) ∧ (c.accept st w).expected = c.expected := by
  cases st with
  | perm =>
    obtain ⟨hr, he, -⟩ := { c with received := c.received.set .perm (c.received.get .perm + 1) }.received_checkPermWord
      (c.received.get .perm) w
    exact ⟨hr, he⟩
  | sys | par1 | par2 => exact received_checkSoftWord ..

theorem clamp_accept {c : Checker} (h : c.clamp ≤ 65535) (st : Stream) (w : Word) : (c.accept st w).clamp ≤ 65535 := by
  by_cases hst : st = .perm
  · rw [hst]
    exact le_of_eq_of_le (received_checkPermWord _ _ _).2.2 h
  · rw [softValuesSaturated.1 c st w hst h]
    exact Nat.min_le_left ..

/-- A stream that is not complete has room for a word. -/
theorem counts_accept {c : Checker} {st : Stream} (hroom : c.isFull st = false) (w : Word)
    (h : ∀ x, c.received.get x ≤ c.expected.get x) (x : Stream) :
    (c.accept st w).received.get x ≤ (c.accept st w).expected.get x := by
  obtain ⟨hreceived, hexpected⟩ := c.received_accept st w
  have hne : c.received.get st ≠ c.expected.get st := by simpa [isFull] using hroom
  rw [hreceived, hexpected]
  by_cases hx : x = st
  · rw [hx, PerStream.get_set_self]
    exact lt_of_le_of_ne (h st) hne
  · rw [PerStream.get_set_ne _ _ hx]
    exact h x

end Checker

/-- The work of an engine on its job: the binding and the params stay, and the engine does not become idle. -/
structure Engine.Evolves (g h : Engine) : Prop where
  bound  : h.bound = g.bound
  params : h.params = g.params
  busy   : g.stage ≠ .idle ∧ h.stage ≠ .idle
  sound  : g.Sound → h.Sound

/-! ### Moves -/

/-- One event of the spec, or a part of one that keeps every law. Under `live` a job that is freed is a live job. -/
inductive State.Move (live : Prop) (s : State) : State → Prop
  /-- The commands that wait. -/
  | pending (l : List Instr) : Move live s { s with pending := l }
  | unit {p : Port} {f : PortUnit → PortUnit} (h : (s.port p).Evolves (f (s.port p))) : Move live s (s.modPort p f)
  | engine {e : EngineId} {f : Engine → Engine} (h : (s.engine e).Evolves (f (s.engine e))) :
      Move live s (s.modEngine e f)
  | memory {m : Memory} (c : BitVec 256) (h : s.mem.wf → m.wf) : Move live s { s with mem := m, clean := c }
  | create {p : Port} (hreset : s.deviceReset = false) (hline : (s.port p).resetHeld = false)
      (h : s.openAnswer p (s.openRecord p) = .accept) : Move live s (s.createJob p (s.openRecord p))
  | trigger {p : Port} {t : Tag} {j : Job} (hj : s.findJob p t = some j) (hs : j.isStaging = true) :
      Move live s (s.triggerJob p t)
  | grant {e : EngineId} {p : Port} {t : Tag} {rest : List Tag} {j : Job} (he : (s.engine e).stage = .idle)
      (hq : s.queue p = t :: rest) (hj : s.findJob p t = some j) (hs : j.isQueued = true) : Move live s (s.grantTo e p t)
  /-- DECODING jobs become ABORTING. -/
  | abort (c : Job → Prop) [DecidablePred c] :
      Move live s { s with jobs := s.jobs.map fun j => if c j then j.toAborting else j }
  /-- A job that no engine holds is freed. -/
  | free {j : Job} (hj : live → j ∈ s.jobs) (he : j.onEngine = false) : Move live s (s.freeJob j)
  /-- A job is freed from its engine. -/
  | abortReport {e : EngineId} {j : Job} (hj : s.findJob j.owner j.tag = some j) (he : j.engine = some e) :
      Move live s ((s.freeJob j).modEngine e Engine.toIdle)
  /-- A DECODING job is completed. -/
  | complete {e : EngineId} {j : Job} (o : Outcome) (d : Option Tick) (hj : s.findJob j.owner j.tag = some j)
      (he : j.engine = some e) (ha : j.abortRequested = false) :
      Move live s (((s.returnPages j.inputPages).modJob j.owner j.tag fun k =>
        { k with phase := .held o d false }).modEngine e Engine.toIdle)
  | deliver {p : Port} {t : Tag} {j : Job} {o : Outcome} {d : Option Tick} {raised : Bool}
      (hj : s.findJob p t = some j) (hs : j.phase = .held o d raised) (hw : (s.port p).window = none) :
      Move live s (s.deliver p t o)
  | tick (now : Tick) : Move live s { s with tick := now, jobs := s.jobs.map (·.raiseExpiry now) }
  /-- A port unit is cleared when no job of its port is left but on an engine, to be aborted. -/
  | clearUnit {p : Port} {f : PortUnit → PortUnit} (hjobs : ∀ j ∈ s.jobs, j.owner = p → j.isAborting = true)
      (hunit : ∀ u, (f u).slot = none ∧ (f u).window = none ∧ (f u).notices = [] ∧ (f u).raw = 0#5 ∧
        (f u).checker = Checker.cleared) : Move live s (s.modPort p f)
  | deviceReset {units : PerPort PortUnit}
      (h : ∀ p, ∃ bus, units.get p = { PortUnit.reset with resetHeld := (s.port p).resetHeld, bus := bus }) :
      Move live s (s.deviceResetWith units)

theorem State.Move.mono {live live' : Prop} (hl : live → live') {s t : State} (h : s.Move live' t) : s.Move live t := by
  cases h with
  | pending l => exact .pending l
  | unit h => exact .unit h
  | engine h => exact .engine h
  | memory c h => exact .memory c h
  | create hreset hline h => exact .create hreset hline h
  | trigger hj hs => exact .trigger hj hs
  | grant he hq hj hs => exact .grant he hq hj hs
  | abort c => exact .abort c
  | free hj he => exact .free (hj ∘ hl) he
  | abortReport hj he => exact .abortReport hj he
  | complete o d hj he ha => exact .complete o d hj he ha
  | deliver hj hs hw => exact .deliver hj hs hw
  | tick now => exact .tick now
  | clearUnit hjobs hunit => exact .clearUnit hjobs hunit
  | deviceReset h => exact .deviceReset h

/-- A sequence of moves. -/
abbrev State.Moves (live : Prop) : State → State → Prop := Relation.ReflTransGen (State.Move live)

namespace State

variable {live : Prop} {s t u : State} {p : Port} {tag : Tag} {e : EngineId} {j : Job}

/-! ### Port units -/

theorem moves_unit {f : PortUnit → PortUnit} (h : (s.port p).Evolves (f (s.port p))) : Moves live s (s.modPort p f) :=
  .single (.unit h)

theorem moves_answer (s : State) (p : Port) (ans : BusAnswer) : Moves live s (s.answer p ans) :=
  moves_unit (.of_eq rfl rfl rfl rfl)

theorem moves_respond (s : State) (p : Port) (code : RespCode) (cmd : BitVec 8) (tag : Tag) (r1 r2 r3 : Word) :
    Moves live s (s.respond p code cmd tag r1 r2 r3) :=
  moves_unit (.of_eq rfl rfl rfl rfl)

theorem moves_pushNotice (s : State) (p : Port) (n : Notice) : Moves live s (s.pushNotice p n) :=
  moves_unit (.pushNotice _ n)

theorem moves_setStatus (h : (s.port p).resetHeld = false) (b : StatusBit) : Moves live s (s.setStatus p b) :=
  moves_unit (.setBit h b)

/-! ### Staging -/

theorem moves_writeArea (s : State) (pages : List Page) (o : Nat) (vs : List Byte) :
    Moves live s (s.writeArea pages o vs) := by
  rw [writeArea_frame]
  exact .single (.memory _ fun h => wf_writeArea h pages o vs)

theorem moves_triggerJob (s : State) (p : Port) (tag : Tag) : Moves live s (s.triggerJob p tag) := by
  by_cases h : ∃ j, s.findJob p tag = some j ∧ j.isStaging = true
  · obtain ⟨j, hj, hs⟩ := h
    exact .single (.trigger hj hs)
  · rw [triggerJob_other fun j hj => Bool.eq_false_iff.2 fun hs => h ⟨j, hj, hs⟩]

theorem moves_storeStreamWord (s : State) (p : Port) (tag : Tag) (o : Nat) (w : Word) :
    Moves live s (s.storeStreamWord p tag o w) := by
  unfold storeStreamWord
  split
  · exact moves_writeArea ..
  · exact .refl

theorem moves_acceptStreamWord {st : Stream} (hroom : (s.port p).checker.isFull st = false) (tag : Tag) (w : Word) :
    Moves live s (s.acceptStreamWord p tag st w) := by
  have htaken : Moves live s (s.wordTaken p tag st w) := by
    rw [wordTaken_eq]
    refine (moves_storeStreamWord ..).trans (moves_unit ?_)
    rw [storeStreamWord_frame]
    exact .checker (Checker.counts_accept hroom w) fun h => Checker.clamp_accept h st w
  rw [acceptStreamWord_eq]
  split
  · exact htaken.trans (moves_triggerJob ..)
  · exact htaken

theorem moves_streamWord (h : (s.port p).resetHeld = false) (st : Stream) (w : Word) (good : Bool) :
    Moves live s (s.streamWord p st w good) := by
  cases hslot : (s.port p).slot with
  | none =>
    cases good with
    | true => exact streamWord_noJob (s := s) hslot ▸ moves_unit (.setBit h _)
    | false => exact streamWord_noJob_badParity (s := s) hslot ▸ moves_unit (.of_unheld h rfl le_rfl rfl)
  | some tag =>
    cases good with
    | false =>
      rw [streamWord_badParity hslot]
      exact moves_unit ⟨rfl, rfl, fun hline => by simp [PortUnit.setBit, h] at hline, id, id, id⟩
    | true =>
      cases hfull : (s.port p).checker.isFull st with
      | true =>
        rw [streamWord_overflow hslot (by simpa [Checker.isFull] using hfull)]
        exact moves_unit (.checker id id)
      | false =>
        rw [streamWord_accepted hslot (by simpa [Checker.isFull] using hfull)]
        exact moves_acceptStreamWord hfull ..

/-! ### Commands -/

theorem moves_freeJob (hj : j ∈ s.jobs) (he : j.onEngine = false) : Moves live s (s.freeJob j) :=
  .single (.free (fun _ => hj) he)

theorem moves_jobOpen (h : s.portClosed p = false) : Moves live s (s.jobOpen p) := by
  obtain ⟨hreset, -, hline⟩ := (s.portClosed_false_iff p).1 h
  unfold jobOpen
  dsimp only
  split
  · exact moves_respond ..
  · next haccept => exact .trans (.single (.create hreset hline haccept)) (moves_respond ..)

theorem moves_jobTrigger (s : State) (p : Port) : Moves live s (s.jobTrigger p) := by
  unfold jobTrigger triggerStaging
  dsimp only
  split
  · exact moves_respond ..
  · split
    · split
      · exact moves_respond ..
      · exact (moves_triggerJob ..).trans (moves_respond ..)
    all_goals exact moves_respond ..

theorem moves_jobAbort (s : State) (p : Port) : Moves live s (s.jobAbort p) := by
  cases hj : s.findJob p (s.namedTag p) with
  | none =>
    rw [jobAbort_of_findJob_none hj]
    exact moves_respond ..
  | some j =>
    cases he : j.onEngine with
    | false =>
      rw [jobAbort_of_not_onEngine hj he]
      exact (moves_freeJob (findJob_some hj).1 he).trans (moves_respond ..)
    | true =>
      cases hph : j.phase with
      | decoding clamp input e =>
        rw [jobAbort_of_decoding hj hph]
        exact .trans (.single (.abort fun k => k.isFor p (s.namedTag p) = true)) (moves_respond ..)
      | aborting clamp input e =>
        rw [jobAbort_of_aborting hj hph]
        exact moves_respond ..
      | staging | queued | held | delivering => simp [Job.onEngine, Job.engine, hph] at he

theorem moves_jobCollect (s : State) (p : Port) : Moves live s (s.jobCollect p) := by
  unfold jobCollect
  dsimp only
  split
  · exact moves_respond ..
  · next j hj =>
    split
    iterate 4 exact moves_respond ..
    · next o d raised hph =>
      split
      · next hwindow => exact .trans (.single (.deliver hj hph hwindow)) (moves_respond ..)
      · exact moves_respond ..
    · exact moves_respond ..

theorem onEngine_of_outcome_isSome (h : j.outcome.isSome = true) : j.onEngine = false := by
  cases hph : j.phase with
  | staging | queued | decoding | aborting => simp [Job.outcome, hph] at h
  | held | delivering => simp [Job.onEngine, Job.engine, hph]

theorem moves_jobRelease (s : State) (p : Port) : Moves live s (s.jobRelease p) := by
  cases hj : s.findJob p (s.namedTag p) with
  | none =>
    unfold jobRelease
    simp only [hj]
    exact moves_respond ..
  | some j =>
    cases ho : j.outcome with
    | none =>
      rw [jobRelease_of_outcome_none hj ho]
      exact moves_respond ..
    | some o =>
      have hsome : j.outcome.isSome = true := by rw [ho]; rfl
      rw [jobRelease_of_outcome_isSome hj hsome]
      exact (moves_freeJob (findJob_some hj).1 (onEngine_of_outcome_isSome hsome)).trans (moves_respond ..)

theorem moves_jobQuery (s : State) (p : Port) : Moves live s (s.jobQuery p) := by
  cases hj : s.findJob p (s.namedTag p) with
  | none => exact jobQuery_of_findJob_none hj ▸ moves_respond ..
  | some j => exact jobQuery_of_findJob_some hj ▸ moves_respond ..

/-! ### Port reset (R22, R127) -/

theorem IdsDistinct.freeJob (h : s.IdsDistinct) (j : Job) : (s.freeJob j).IdsDistinct := by
  rw [IdsDistinct, freeJob_jobs]
  exact h.sublist (List.filter_sublist.map _)

/-- Freeing one live job leaves the others live. -/
theorem IdsDistinct.mem_jobs_freeJob (h : s.IdsDistinct) {k : Job} (hj : j ∈ s.jobs) (hk : k ∈ s.jobs) (hne : k ≠ j) :
    k ∈ (s.freeJob j).jobs := by
  have hother : k.isFor j.owner j.tag = false :=
    Bool.eq_false_iff.2 fun hfor => hne (h.eq_of_id hk hj ((k.isFor_iff_id _ _).1 hfor))
  rw [freeJob_jobs]
  exact List.mem_filter.2 ⟨hk, by simp [hother]⟩

theorem moves_foldl_freeJob {l : List Job} (hids : live → s.IdsDistinct) (hl : live → l.Nodup)
    (hlive : live → ∀ j ∈ l, j ∈ s.jobs) (hfree : ∀ j ∈ l, j.onEngine = false) :
    Moves live s (l.foldl freeJob s) := by
  induction l generalizing s with
  | nil => exact .refl
  | cons j l ih =>
    have hj : live → j ∈ s.jobs := fun h => hlive h j (by simp)
    refine .trans (.single (.free hj (hfree j (by simp)))) (ih (fun h => (hids h).freeJob j)
      (fun h => (List.nodup_cons.1 (hl h)).2) (fun h k hk => ?_) fun k hk => hfree k (by simp [hk]))
    have hne : k ≠ j := fun he => (List.nodup_cons.1 (hl h)).1 (he ▸ hk)
    exact (hids h).mem_jobs_freeJob (hj h) (hlive h k (by simp [hk])) hne

/-- The jobs that a port reset frees are those of the port that no engine holds (R22). -/
theorem mem_resetFrees (s : State) (p : Port) (j : Job) :
    j ∈ s.resetFrees p ↔ j ∈ s.jobs ∧ j.owner = p ∧ j.onEngine = false := by
  rw [resetFrees, (perm_sortByTag _).mem_iff, jobsOf]
  simp [and_comm]

theorem IdsDistinct.nodup_resetFrees (h : s.IdsDistinct) (p : Port) : (s.resetFrees p).Nodup :=
  (perm_sortByTag _).nodup_iff.2 (((List.Nodup.of_map _ h).filter _).filter _)

theorem moves_resetJobs (hids : live → s.IdsDistinct) (p : Port) : Moves live s (s.resetJobs p) :=
  .trans (moves_foldl_freeJob hids (fun h => (hids h).nodup_resetFrees p)
    (fun _ j hj => ((s.mem_resetFrees p j).1 hj).1) fun j hj => ((s.mem_resetFrees p j).1 hj).2.2)
    (.single (.abort fun j => j.owner = p))

/-- The records that are left when some are freed. -/
theorem jobs_foldl_freeJob (s : State) (l : List Job) :
    (l.foldl freeJob s).jobs = s.jobs.filter fun k => !l.any fun j => k.isFor j.owner j.tag := by
  induction l generalizing s with
  | nil => simp
  | cons j l ih =>
    rw [List.foldl_cons, ih, freeJob_jobs, List.filter_filter]
    simp only [List.any_cons, Bool.not_or, Bool.and_comm]

theorem isAborting_toAborting (h : j.onEngine = true) : j.toAborting.isAborting = true := by
  cases hph : j.phase with
  | decoding | aborting => simp [Job.toAborting, Job.isAborting, hph]
  | staging | queued | held | delivering => simp [Job.onEngine, Job.engine, hph] at h

/-- After the job table's side of a port reset the port's live jobs are ABORTING (R22). -/
theorem isAborting_of_mem_resetJobs (hj : j ∈ (s.resetJobs p).jobs) (howner : j.owner = p) : j.isAborting = true := by
  obtain ⟨k, hk, rfl⟩ := List.mem_map.1 hj
  rw [jobs_foldl_freeJob] at hk
  obtain ⟨hlive, hleft⟩ := List.mem_filter.1 hk
  have hkowner : k.owner = p := by
    split at howner
    · next hkp => exact hkp
    · exact howner
  rw [if_pos hkowner]
  refine isAborting_toAborting (Bool.eq_true_of_not_eq_false fun hfree => ?_)
  have hmem := (s.mem_resetFrees p k).2 ⟨hlive, hkowner, hfree⟩
  have hany : ((s.resetFrees p).any fun j => k.isFor j.owner j.tag) = true :=
    List.any_eq_true.2 ⟨k, hmem, (k.isFor_iff _ _).2 ⟨rfl, rfl⟩⟩
  simp [hany] at hleft

/-- A port reset with what the same event does to the unit besides. -/
theorem moves_portReset (hids : live → s.IdsDistinct) (p : Port) {f : PortUnit → PortUnit}
    (hf : ∀ u : PortUnit, (f u.afterPortReset).links = (none, none, (f u.afterPortReset).resetHeld) ∧
      (f u.afterPortReset).notices = [] ∧ (f u.afterPortReset).raw = 0#5 ∧
      (f u.afterPortReset).checker = Checker.cleared) : Moves live s ((s.portReset p).modPort p f) := by
  rw [portReset, modPort_modPort]
  refine (moves_resetJobs hids p).trans (.single (.clearUnit (fun j hj => isAborting_of_mem_resetJobs hj) fun u => ?_))
  obtain ⟨hlinks, hnotices, hraw, hchecker⟩ := hf u
  simp only [PortUnit.links, Prod.mk.injEq] at hlinks
  exact ⟨hlinks.1, hlinks.2.1, hnotices, hraw, hchecker⟩

theorem moves_jobPortReset (hids : live → s.IdsDistinct) (p : Port) : Moves live s (s.jobPortReset p) := by
  unfold jobPortReset
  exact moves_portReset hids p fun _ => ⟨rfl, rfl, rfl, rfl⟩

theorem moves_assertResetLine (hids : live → s.IdsDistinct) (p : Port) (held : Bool) :
    Moves live s (s.assertResetLine p held) :=
  moves_portReset hids p fun _ => ⟨rfl, rfl, rfl, rfl⟩

/-! ### Accesses -/

theorem moves_takeCommand (hids : live → s.IdsDistinct) (h : s.portClosed p = false) (code : BitVec 8) :
    Moves live s (s.takeCommand p code) := by
  unfold takeCommand
  split_ifs
  · exact moves_jobOpen h
  · exact moves_jobTrigger ..
  · exact moves_jobAbort ..
  · exact moves_jobCollect ..
  · exact moves_jobRelease ..
  · exact moves_jobQuery ..
  · exact moves_jobPortReset hids p
  · exact moves_respond ..

theorem moves_refuseParity (h : (s.port p).resetHeld = false) (code : BitVec 8) (good : Bool) :
    Moves live s (s.refuseParity p code good) := by
  have htaint (s : State) : Moves live s (s.modPort p fun u => { u with taint := false }) :=
    moves_unit (.of_eq rfl rfl rfl rfl)
  cases good with
  | true => exact (htaint s).trans (moves_respond ..)
  | false => exact ((moves_setStatus h _).trans (htaint _)).trans (moves_respond ..)

theorem moves_commandWrite (hids : live → s.IdsDistinct) (h : s.portClosed p = false) (w : Word) (good : Bool) :
    Moves live s (s.commandWrite p w good) := by
  obtain ⟨-, -, hline⟩ := (s.portClosed_false_iff p).1 h
  unfold commandWrite
  dsimp only
  split
  · exact moves_refuseParity hline ..
  · exact moves_takeCommand hids h _

theorem moves_performWrite (hids : live → s.IdsDistinct) (h : s.portClosed p = false) (target : WriteTarget) (w : Word)
    (good : Bool) : Moves live s (s.performWrite p target w good) := by
  obtain ⟨-, -, hline⟩ := (s.portClosed_false_iff p).1 h
  cases target with
  | cmd => exact moves_commandWrite hids h w good
  | stream st => exact moves_streamWord hline st w good
  | stray =>
    cases good with
    | true => exact moves_setStatus hline _
    | false =>
      refine (moves_setStatus hline .strayWrite).trans (moves_setStatus ?_ .dataParity)
      rw [setStatus_eq, port_modPort_self]
      exact hline
  | settings | statusSet | statusClear | enableSet | enableClear | param =>
    rw [performWrite_own]
    · refine moves_unit ?_
      split
      · exact .writeWord hline _ w
      · exact .badWrite hline _
    all_goals nofun

theorem moves_writeAccess (hids : live → s.IdsDistinct) (p : Port) (a : WordAddr) (w : Word) (bus : WriteParity) :
    Moves live s (s.writeAccess p a w bus) := by
  cases hclosed : s.portClosed p with
  | true =>
    rw [writeAccess_closed hclosed]
    exact moves_answer ..
  | false =>
    obtain ⟨-, -, hline⟩ := (s.portClosed_false_iff p).1 hclosed
    cases haddr : addrParityGood a true bus.addr with
    | false =>
      rw [writeAccess_badAddress hclosed w haddr]
      exact (moves_setStatus hline _).trans (moves_answer ..)
    | true =>
      rw [writeAccess_performed hclosed w haddr]
      exact (moves_performWrite hids hclosed ..).trans (moves_answer ..)

theorem moves_performRead (h : (s.port p).resetHeld = false) (target : ReadTarget) :
    Moves live s (s.performRead p target) := by
  have hstray : Moves live s ((s.setStatus p .strayRead).answer p (goodRead 0#32)) :=
    (moves_setStatus h _).trans (moves_answer ..)
  cases target with
  | notice =>
    cases hn : (s.port p).notices with
    | nil => exact performRead_notice_empty hn ▸ moves_answer ..
    | cons n rest =>
      rw [performRead_notice_cons hn]
      exact (moves_unit (.of_unheld h rfl (by simp [hn]) rfl)).trans (moves_answer ..)
  | window o =>
    cases hw : s.windowWord p o with
    | some w => exact performRead_window_some hw ▸ moves_answer ..
    | none => exact performRead_window_none hw ▸ hstray
  | stray => exact hstray
  | ident | settings | status | enable | enabledStatus | param | resp => exact moves_answer ..

theorem moves_readAccess (s : State) (p : Port) (a : WordAddr) (par : Bool) : Moves live s (s.readAccess p a par) := by
  cases hclosed : s.portClosed p with
  | true =>
    rw [readAccess_closed hclosed]
    exact moves_answer ..
  | false =>
    obtain ⟨-, -, hline⟩ := (s.portClosed_false_iff p).1 hclosed
    cases haddr : addrParityGood a false par with
    | false =>
      rw [readAccess_badAddress hclosed haddr]
      exact (moves_setStatus hline _).trans (moves_answer ..)
    | true =>
      rw [readAccess_performed hclosed haddr]
      exact moves_performRead hline _

end State

/-! ### An engine through its stages -/

namespace Engine

variable {g : Engine} {pr : Params}

theorem sound_prime_iff (hs : g.stage = .prime) (hp : g.params = some pr) :
    g.Sound ↔ g.iteration = 0 ∧ g.streak = 0 ∧ g.pending = none ∧ 1 ≤ pr.maxIter := by
  simp only [Sound, hs, hp]

theorem sound_iterating_iff (hs : g.stage = .pass1 ∨ g.stage = .pass2 ∨ g.stage = .evaluate) (hp : g.params = some pr) :
    g.Sound ↔ 1 ≤ g.iteration ∧ g.iteration ≤ pr.maxIter ∧ g.streak < g.iteration ∧ g.pending = none := by
  obtain hs | hs | hs := hs <;> simp only [Sound, hs, hp]

theorem sound_store_iff (hs : g.stage = .store) (hp : g.params = some pr) :
    g.Sound ↔ g.iteration ≤ pr.maxIter ∧ g.streak ≤ g.iteration ∧
      ∃ po, g.pending = some po ∧ po.iterationsDone = g.iteration ∧ (po.stopReason = .permInvalid ↔ g.iteration = 0) := by
  simp only [Sound, hs, hp]

theorem Sound.of_iterating (hs : g.stage = .pass1 ∨ g.stage = .pass2 ∨ g.stage = .evaluate) (hp : g.params = some pr)
    (h : 1 ≤ g.iteration ∧ g.iteration ≤ pr.maxIter ∧ g.streak < g.iteration ∧ g.pending = none) : g.Sound :=
  (sound_iterating_iff hs hp).2 h

theorem Sound.of_store (hs : g.stage = .store) (hp : g.params = some pr) (h : g.iteration ≤ pr.maxIter ∧
    g.streak ≤ g.iteration ∧ ∃ po, g.pending = some po ∧ po.iterationsDone = g.iteration ∧
      (po.stopReason = .permInvalid ↔ g.iteration = 0)) : g.Sound :=
  (sound_store_iff hs hp).2 h

/-- The permutation memory, the working values and the abort-seen flag may change while the engine works. -/
theorem evolves_memory (h : g.stage ≠ .idle) (m : List Nat) (w : WorkingValues) (a : Bool) :
    g.Evolves { g with permMemory := m, work := w, abortSeen := a } := by
  refine ⟨rfl, rfl, ⟨h, h⟩, fun hsound => ?_⟩
  obtain ⟨stage, _, params, _, _, _, _, _, _, _, _⟩ := g
  cases stage with
  | idle => exact absurd rfl h
  | prime | pass1 | pass2 | evaluate | store => cases params <;> exact hsound

/-- After PRIME (R96, R98). -/
theorem evolves_afterPrime (hs : g.stage = .prime) (hp : g.params = some pr) (valid : Bool) :
    g.Evolves (g.afterPrime valid) := by
  have hbusy : g.stage ≠ .idle := by rw [hs]; decide
  cases valid with
  | true =>
    refine ⟨rfl, rfl, ⟨hbusy, nofun⟩, fun hsound => ?_⟩
    obtain ⟨hiter, hstreak, hpending, hmax⟩ := (sound_prime_iff hs hp).1 hsound
    refine .of_iterating (.inl rfl) hp ?_
    simp only [afterPrime, if_true, hiter, hstreak, hpending, Nat.zero_add]
    exact ⟨le_rfl, hmax, Nat.zero_lt_one, trivial⟩
  | false =>
    refine ⟨rfl, rfl, ⟨hbusy, nofun⟩, fun hsound => ?_⟩
    obtain ⟨hiter, hstreak, hpending, hmax⟩ := (sound_prime_iff hs hp).1 hsound
    refine .of_store rfl hp ⟨?_, ?_, _, rfl, ?_, ?_⟩
    all_goals simp [afterPrime, permInvalidOutcome, hiter, hstreak]

/-- From a pass to the next stage of the iteration (R98, R99). -/
theorem evolves_stage {stage : Stage} (hs : g.stage = .pass1 ∨ g.stage = .pass2 ∨ g.stage = .evaluate)
    (hp : g.params = some pr) (hnext : stage = .pass1 ∨ stage = .pass2 ∨ stage = .evaluate) :
    g.Evolves { g with stage := stage } := by
  refine ⟨rfl, rfl, ⟨?_, ?_⟩, fun hsound => ?_⟩
  · obtain hs | hs | hs := hs <;> simp [hs]
  · obtain rfl | rfl | rfl := hnext <;> simp
  · exact .of_iterating hnext hp ((sound_iterating_iff hs hp).1 hsound)

theorem nextStreak_le (streak : Nat) (checksum : Option Bool) : nextStreak streak checksum ≤ streak + 1 := by
  unfold nextStreak
  split <;> omega

/-- What a stop decision can be (R103): EVALUATE never finds the permutation invalid, and goes on only below max_iter. -/
theorem stopDecision_cases (pr : Params) (n streak : Nat) (quality : Option Nat) :
    (∃ reason, stopDecision pr n streak quality = some reason ∧ reason ≠ .permInvalid) ∨
      (stopDecision pr n streak quality = none ∧ n ≠ pr.maxIter) := by
  unfold stopDecision
  split_ifs with _ _ hlimit
  · exact .inl ⟨_, rfl, nofun⟩
  · exact .inl ⟨_, rfl, nofun⟩
  · exact .inl ⟨_, rfl, nofun⟩
  · exact .inr ⟨rfl, hlimit⟩

/-- After EVALUATE (R101, R103). -/
theorem evolves_evaluated (hs : g.stage = .evaluate) (hp : g.params = some pr) (checksum : Option Bool)
    (quality : Option Nat) : g.Evolves (g.evaluated pr checksum quality) := by
  have hbusy : g.stage ≠ .idle := by rw [hs]; decide
  have hstreak := nextStreak_le g.streak checksum
  obtain ⟨reason, hstop, hreason⟩ | ⟨hgo, hlimit⟩ :=
    stopDecision_cases pr g.iteration (nextStreak g.streak checksum) quality
  · rw [evaluated_stop hstop]
    refine ⟨rfl, rfl, ⟨hbusy, nofun⟩, fun hsound => .of_store rfl hp ?_⟩
    obtain ⟨hone, hmax, hlt, -⟩ := (sound_iterating_iff (.inr (.inr hs)) hp).1 hsound
    refine ⟨hmax, ?_, _, rfl, rfl, iff_of_false hreason ?_⟩
    · show nextStreak g.streak checksum ≤ g.iteration
      omega
    · show ¬ g.iteration = 0
      omega
  · rw [evaluated_continue hgo]
    refine ⟨rfl, rfl, ⟨hbusy, nofun⟩, fun hsound => .of_iterating (.inl rfl) hp ?_⟩
    obtain ⟨hone, hmax, hlt, hpending⟩ := (sound_iterating_iff (.inr (.inr hs)) hp).1 hsound
    refine ⟨Nat.le_add_left .., ?_, ?_, hpending⟩
    · show g.iteration + 1 ≤ pr.maxIter
      omega
    · show nextStreak g.streak checksum < g.iteration + 1
      omega

end Engine

namespace State

variable {live : Prop} {s : State} {e : EngineId} {j : Job}

theorem moves_engine {f : Engine → Engine} (h : (s.engine e).Evolves (f (s.engine e))) : Moves live s (s.modEngine e f) :=
  .single (.engine h)

theorem moves_grant (s : State) : Moves live s s.grant := by
  unfold grant
  split
  · exact .refl
  · split
    · next e p t hchoice =>
      obtain ⟨hidle, hhead⟩ := grantChoice_some hchoice
      obtain ⟨-, rest, hqueue⟩ := firstHead_some hhead
      by_cases hjob : ∃ j, s.findJob p t = some j ∧ j.isQueued = true
      · obtain ⟨j, hj, hqueued⟩ := hjob
        exact .single (.grant (idleEngine_some hidle) hqueue hj hqueued)
      · have hnot (j : Job) (hj : s.findJob p t = some j) : ¬ j.isQueued = true := fun hq => hjob ⟨j, hj, hq⟩
        unfold grantTo
        split
        · next j hj => rw [if_neg (hnot j hj)]
        · exact .refl
    · exact .refl

/-- A boundary frees its job from the engine, or goes on (R91). -/
theorem moves_boundary (hbusy : (s.engine e).stage ≠ .idle) (hj : s.findJob j.owner j.tag = some j)
    (he : j.engine = some e) {proceed : State → State}
    (hproceed : j.abortRequested = false → Moves live (s.modEngine e fun g => { g with abortSeen := false })
      (proceed (s.modEngine e fun g => { g with abortSeen := false }))) : Moves live s (s.boundary e j proceed) := by
  have hseen (a : Bool) : Moves live s (s.modEngine e fun g => { g with abortSeen := a }) :=
    moves_engine (Engine.evolves_memory hbusy ..)
  cases habort : j.abortRequested with
  | true =>
    rw [boundary_yes habort, abortReport]
    exact ((hseen true).trans (.single (.abortReport hj he))).trans (moves_pushNotice ..)
  | false =>
    rw [boundary_no habort]
    exact (hseen false).trans (hproceed habort)

/-- The end of a stage that does the work of the stage and goes on to another. -/
theorem moves_stageEnd {stage : Stage} {pr : Params} (h : s.inStage e stage = some (j, pr)) (hstage : stage ≠ .idle)
    {work next : Engine → Engine} (hwork : ∀ g, ∃ m w, work g = { g with permMemory := m, work := w })
    (hnext : ∀ g : Engine, g.stage = stage → g.params = some pr → g.Evolves (next g)) :
    Moves live s ((s.modEngine e work).boundary e j fun s => s.modEngine e next) := by
  obtain ⟨-, hs, -, hj, he, hp⟩ := inStage_some h
  have hbusy : (s.engine e).stage ≠ .idle := by rwa [hs]
  obtain ⟨m, w, hg⟩ := hwork (s.engine e)
  have hdone : (s.modEngine e work).engine e = { s.engine e with permMemory := m, work := w } :=
    (engine_modEngine_self ..).trans hg
  refine (moves_engine (f := work) ?_).trans (moves_boundary (s := s.modEngine e work) ?_ hj he
    fun _ => moves_engine (hnext _ ?_ ?_))
  · rw [hg]
    exact Engine.evolves_memory hbusy ..
  · rwa [hdone]
  · rw [engine_modEngine_self, hdone]
    exact hs
  · rw [engine_modEngine_self, hdone]
    exact hp

theorem moves_endOfPrime (s : State) (e : EngineId) : Moves live s (s.endOfPrime e) := by
  unfold endOfPrime
  split
  · next h =>
    exact moves_stageEnd h nofun (fun g => ⟨_, _, rfl⟩) fun g hs hp => Engine.evolves_afterPrime hs hp _
  · exact .refl

theorem moves_endOfPass1 (s : State) (e : EngineId) : Moves live s (s.endOfPass1 e) := by
  unfold endOfPass1
  split
  · next h =>
    exact moves_stageEnd h nofun (fun g => ⟨_, _, rfl⟩) fun g hs hp =>
      Engine.evolves_stage (.inl hs) hp (.inr (.inl rfl))
  · exact .refl

theorem moves_endOfPass2 (s : State) (e : EngineId) : Moves live s (s.endOfPass2 e) := by
  unfold endOfPass2
  split
  · next h =>
    exact moves_stageEnd h nofun (fun g => ⟨_, _, rfl⟩) fun g hs hp =>
      Engine.evolves_stage (.inr (.inl hs)) hp (.inr (.inr rfl))
  · exact .refl

theorem moves_endOfEvaluate (s : State) (e : EngineId) : Moves live s (s.endOfEvaluate e) := by
  unfold endOfEvaluate
  split
  · next h =>
    obtain ⟨-, hs, -, -, -, hp⟩ := inStage_some h
    exact moves_engine (Engine.evolves_evaluated hs hp ..)
  · exact .refl

theorem moves_endOfStore (s : State) (e : EngineId) : Moves live s (s.endOfStore e) := by
  unfold endOfStore
  split
  · next j pr po h _ =>
    obtain ⟨-, hs, -, hj, he, -⟩ := inStage_some h
    generalize storeBytes pr po (s.engine e).work = vs
    have hframe := writeArea_frame s j.output 0 vs
    have hj' : (s.writeArea j.output 0 vs).findJob j.owner j.tag = some j := by rw [hframe]; exact hj
    refine (moves_writeArea s j.output 0 vs).trans (moves_boundary ?_ hj' he fun habort => ?_)
    · rw [hframe]
      show (s.engine e).stage ≠ .idle
      rw [hs]
      decide
    · exact .trans (.single (.complete _ _ hj' he habort)) (moves_pushNotice ..)
  · exact .refl

theorem moves_tickOnce (s : State) : Moves live s s.tickOnce := by
  unfold tickOnce
  split
  · exact .refl
  · exact .single (.tick _)

theorem moves_expireJob (s : State) (p : Port) (t : Tag) : Moves live s (s.expireJob p t) := by
  unfold expireJob
  split
  · next j hj =>
    split_ifs with hdue
    · have hfree : j.onEngine = false := by
        cases hph : j.phase with
        | decoding | aborting | staging | queued | delivering => simp [Job.expiryDue, hph] at hdue
        | held => simp [Job.onEngine, Job.engine, hph]
      exact (moves_freeJob (findJob_some hj).1 hfree).trans (moves_pushNotice ..)
    · exact .refl
  · exact .refl

end State

/-! ### One step -/

/-- What a row does in a state: it releases the device reset, or it is a sequence of moves, which free live jobs when the
identities are distinct. -/
theorem moves_exec {c : Instr} {s t : State} (h : exec c s = .next t) : s.Moves s.IdsDistinct t ∨
    (∃ prof1 prof0, c = .deviceResetRelease prof1 prof0) ∧ s.deviceReset = true ∧
      ∃ pf, t = { s with deviceReset := false, profile := pf } := by
  cases c with
  | openJob | trigger | abort | collect | release | query | portReset | badCommand | streamWord | paramWrite
  | settingsWrite | statusSet | statusClear | enableSet | enableClear | strayWrite =>
    cases h; exact .inl (State.moves_writeAccess id ..)
  | noticeRead | resultWindowRead | strayRead => cases h; exact .inl (State.moves_readAccess ..)
  | grant => cases h; exact .inl s.moves_grant
  | endOfPrime e => cases h; exact .inl (s.moves_endOfPrime e)
  | endOfPass1 e => cases h; exact .inl (s.moves_endOfPass1 e)
  | endOfPass2 e => cases h; exact .inl (s.moves_endOfPass2 e)
  | endOfEvaluate e => cases h; exact .inl (s.moves_endOfEvaluate e)
  | endOfStore e => cases h; exact .inl (s.moves_endOfStore e)
  | tick => cases h; exact .inl s.moves_tickOnce
  | expiry p tag => cases h; exact .inl (s.moves_expireJob p tag)
  | deviceReset held => cases h; exact .inl (.single (.deviceReset fun p => by cases p <;> exact ⟨_, rfl⟩))
  | powerOn => cases h; exact .inl (.single (.deviceReset fun p => by cases p <;> exact ⟨_, rfl⟩))
  | deviceResetRelease prof1 prof0 =>
    cases h
    unfold State.releaseDeviceReset
    split
    · next hreset => exact .inr ⟨⟨prof1, prof0, rfl⟩, hreset, _, rfl⟩
    · exact .inl .refl
  | portResetLineAssertion p held => cases h; exact .inl (State.moves_assertResetLine id p held)
  | portResetLineRelease p =>
    cases h
    exact .inl (State.moves_unit ⟨rfl, rfl, nofun, id, id, id⟩)

/-- A law that every move keeps, and the release of the device reset with it, is kept by every step; a law with distinct
identities may take it that only live jobs are freed. -/
theorem step_keeps {Law : State → Prop} {live : Prop} (hlive : live → ∀ s, Law s → s.IdsDistinct)
    (hmove : ∀ {s t : State}, s.Move live t → Law s → Law t)
    (hrelease : ∀ (s : State) (pf : Profile), s.deviceReset = true → Law s →
      Law { s with deviceReset := false, profile := pf })
    {s t : State} (h : Law s) (hstep : step s = .next t) : Law t := by
  have hmoves {live' : Prop} (hl : live → live') {s t : State} (h : Law s) (hm : s.Moves live' t) : Law t := by
    induction hm with
    | refl => exact h
    | tail _ hlast ih => exact hmove (hlast.mono hl) ih
  unfold step at hstep
  split at hstep
  · cases hstep
    exact h
  · next c rest _ =>
    have hpending : Law { s with pending := rest } := hmove (.pending rest) h
    obtain hm | ⟨-, hreset, pf, rfl⟩ := moves_exec hstep
    · exact hmoves (fun hl => hlive hl _ hpending) hpending hm
    · exact hrelease _ pf hreset hpending

end Sys2Proof.Machine
end

section
/-! PROOF. What a move makes of the job table: some records go, each of the others takes one step of its life cycle, or a new
record joins them. The laws that each record keeps by itself, and the ceilings (R4, R6, R17, R27). -/

namespace Sys2Proof.Machine

/-! ### A record's life cycle (Table 1-1a) -/

/-- What a move makes of a live record. Under `ids` the record that completes or is delivered is the one that the event
names; a record is granted an engine that `starts`. -/
inductive Job.Next (ids : Prop) (starts : EngineId → Prop) (j : Job) : Job → Prop
  | same : Next ids starts j j
  | queued (clamp : Nat) : Next ids starts j (j.queued clamp)
  | granted {e : EngineId} (h : starts e) : Next ids starts j (j.granted e)
  | aborting : Next ids starts j j.toAborting
  | held (o : Outcome) (d : Option Tick) (h : ids → j.abortRequested = false ∧ j.onEngine = true) :
      Next ids starts j { j with phase := .held o d false }
  | delivering (o : Outcome) (h : ids → ∃ d raised, j.phase = .held o d raised) :
      Next ids starts j { j with phase := .delivering o }
  | raised (now : Tick) : Next ids starts j (j.raiseExpiry now)

/-- The words of a record that never change. -/
def Job.fixed (j : Job) : JobId × Params × List Page := (j.id, j.params, j.output)

namespace Job

variable {ids : Prop} {starts : EngineId → Prop} {j k : Job}

@[simp] theorem fixed_queued (j : Job) (clamp : Nat) : (j.queued clamp).fixed = j.fixed := by
  unfold queued
  split <;> rfl

@[simp] theorem fixed_granted (j : Job) (e : EngineId) : (j.granted e).fixed = j.fixed := by
  unfold granted
  split <;> rfl

@[simp] theorem fixed_toAborting (j : Job) : j.toAborting.fixed = j.fixed := by
  unfold toAborting
  split <;> rfl

@[simp] theorem fixed_raiseExpiry (j : Job) (now : Tick) : (j.raiseExpiry now).fixed = j.fixed := by
  unfold raiseExpiry
  split <;> rfl

theorem Next.fixed_eq (h : j.Next ids starts k) : k.fixed = j.fixed := by
  cases h with
  | same | held | delivering => rfl
  | queued | granted | aborting | raised => simp

theorem Next.id_eq (h : j.Next ids starts k) : k.id = j.id := congrArg (·.1) h.fixed_eq

theorem Next.params_eq (h : j.Next ids starts k) : k.params = j.params := congrArg (·.2.1) h.fixed_eq

theorem Next.output_eq (h : j.Next ids starts k) : k.output = j.output := congrArg (·.2.2) h.fixed_eq

theorem Next.owner_eq (h : j.Next ids starts k) : k.owner = j.owner := congrArg JobId.owner h.id_eq

/-- A record keeps its input pages until it has an outcome, and takes no page. -/
theorem Next.inputPages_cases (h : j.Next ids starts k) :
    (k.inputPages = j.inputPages ∧ k.outcome = j.outcome) ∨ (k.inputPages = [] ∧ k.outcome.isSome = true) := by
  cases h with
  | same => exact .inl ⟨rfl, rfl⟩
  | held | delivering => exact .inr ⟨rfl, rfl⟩
  | queued | granted | aborting =>
    obtain ⟨_, _, _, _, _, phase⟩ := j
    cases phase <;> exact .inl ⟨rfl, rfl⟩
  | raised =>
    obtain ⟨_, _, _, _, _, phase⟩ := j
    rcases phase with _ | _ | _ | _ | ⟨o, d, r⟩ | _ <;> try exact .inl ⟨rfl, rfl⟩
    cases d <;> exact .inl ⟨rfl, rfl⟩

theorem Next.length_pages_le (h : j.Next ids starts k) : k.pages.length ≤ j.pages.length := by
  rw [pages, pages, List.length_append, List.length_append, h.output_eq]
  obtain ⟨hinput, -⟩ | ⟨hinput, -⟩ := h.inputPages_cases
  · rw [hinput]
  · rw [hinput]
    exact Nat.add_le_add_right (Nat.zero_le _) _

end Job

namespace State

variable {live : Prop} {s t : State}

/-! ### The job table after a move -/

theorem grantTo_jobs {e : EngineId} {p : Port} {tag : Tag} {j : Job} (hj : s.findJob p tag = some j)
    (hs : j.isQueued = true) :
    (s.grantTo e p tag).jobs = s.jobs.map fun k => if k.isFor p tag then k.granted e else k := by
  rw [grantTo_queued hj hs]

theorem triggerJob_jobs {p : Port} {tag : Tag} {j : Job} (hj : s.findJob p tag = some j) (hs : j.isStaging = true) :
    (s.triggerJob p tag).jobs =
      s.jobs.map fun k => if k.isFor p tag then k.queued (s.port p).checker.clamp else k := by
  rw [triggerJob_staging hj hs]

/-- With distinct identities a live record of an identity is the one found. -/
theorem IdsDistinct.eq_of_findJob (h : s.IdsDistinct) {p : Port} {tag : Tag} {j k : Job} (hj : s.findJob p tag = some j)
    (hk : k ∈ s.jobs) (hfor : k.isFor p tag = true) : k = j := by
  obtain ⟨hmem, rfl, rfl⟩ := findJob_some hj
  exact h.eq_of_id hk hmem ((k.isFor_iff_id _ _).1 hfor)

/-- The engine leaves IDLE. -/
def Starts (s t : State) (e : EngineId) : Prop := (s.engine e).stage = .idle ∧ (t.engine e).stage ≠ .idle

/-- Some records go and each of the others takes a step of its life cycle, or a new record joins them. -/
theorem Move.jobs_cases (m : s.Move live t) :
    (∃ c f, t.jobs = (s.jobs.filter c).map f ∧ ∀ j ∈ s.jobs, j.Next s.IdsDistinct (s.Starts t) (f j)) ∨
      ∃ p, s.deviceReset = false ∧ (s.port p).resetHeld = false ∧ s.openAnswer p (s.openRecord p) = .accept ∧
        t = s.createJob p (s.openRecord p) := by
  have hkeep (hjobs : t.jobs = s.jobs) :
      ∃ c f, t.jobs = (s.jobs.filter c).map f ∧ ∀ j ∈ s.jobs, j.Next s.IdsDistinct (s.Starts t) (f j) :=
    ⟨fun _ => true, id, by simp [hjobs], fun j _ => .same⟩
  have hmap {f : Job → Job} (hjobs : t.jobs = s.jobs.map f) (hf : ∀ j ∈ s.jobs, j.Next s.IdsDistinct (s.Starts t) (f j)) :
      ∃ c f, t.jobs = (s.jobs.filter c).map f ∧ ∀ j ∈ s.jobs, j.Next s.IdsDistinct (s.Starts t) (f j) :=
    ⟨fun _ => true, f, by simp [hjobs], hf⟩
  have hdrop (c : Job → Bool) (hjobs : t.jobs = s.jobs.filter c) :
      ∃ c f, t.jobs = (s.jobs.filter c).map f ∧ ∀ j ∈ s.jobs, j.Next s.IdsDistinct (s.Starts t) (f j) :=
    ⟨c, id, by simp [hjobs], fun j _ => .same⟩
  have hite {p : Port} {tag : Tag} {f : Job → Job}
      (hf : ∀ j ∈ s.jobs, j.isFor p tag = true → j.Next s.IdsDistinct (s.Starts t) (f j)) (j : Job) (hj : j ∈ s.jobs) :
      j.Next s.IdsDistinct (s.Starts t) (if j.isFor p tag then f j else j) := by
    split
    · next hfor => exact hf j hj hfor
    · exact .same
  cases m with
  | create hreset hline h => exact .inr ⟨_, hreset, hline, h, rfl⟩
  | pending | unit | engine | memory | clearUnit => exact .inl (hkeep rfl)
  | trigger hj hs => exact .inl (hmap (triggerJob_jobs hj hs) (hite fun j _ _ => .queued _))
  | @grant e p tag _ j hidle _ hj hs =>
    have hstarts : s.Starts (s.grantTo e p tag) e := by
      refine ⟨hidle, ?_⟩
      rw [grantTo_queued hj hs]
      show ((s.modEngine e (·.startPrime ⟨p, tag⟩ j.params)).engine e).stage ≠ .idle
      rw [engine_modEngine_self]
      nofun
    exact .inl (hmap (grantTo_jobs hj hs) (hite fun j _ _ => .granted hstarts))
  | abort c =>
    refine .inl (hmap rfl fun j _ => ?_)
    split
    · exact .aborting
    · exact .same
  | free _ _ => exact .inl (hdrop _ (freeJob_jobs ..))
  | abortReport hj he => exact .inl (hdrop _ (freeJob_jobs ..))
  | complete o d hj he ha =>
    refine .inl (hmap rfl (hite fun k hk hfor => .held o d fun hids => ?_))
    obtain rfl := hids.eq_of_findJob hj hk hfor
    exact ⟨ha, by simp [Job.onEngine, he]⟩
  | deliver hj hs _ =>
    refine .inl (hmap rfl (hite fun k hk hfor => .delivering _ fun hids => ?_))
    obtain rfl := hids.eq_of_findJob hj hk hfor
    exact ⟨_, _, hs⟩
  | tick now => exact .inl (hmap rfl fun j _ => .raised now)
  | deviceReset _ => exact .inl (hdrop (fun _ => false) (by simp [deviceResetWith, reset]))

/-- A law of each record by itself. -/
theorem Move.forall_jobs {Law : Job → Prop} (m : s.Move live t) (h : ∀ j ∈ s.jobs, Law j)
    (hnext : ∀ {j k : Job}, j.Next s.IdsDistinct (s.Starts t) k → Law j → Law k)
    (hnew : ∀ p, s.openAnswer p (s.openRecord p) = .accept → Law (s.newJob p (s.openRecord p))) :
    ∀ j ∈ t.jobs, Law j := by
  obtain ⟨c, f, hjobs, hf⟩ | ⟨p, -, -, haccept, rfl⟩ := m.jobs_cases
  · intro j hj
    rw [hjobs] at hj
    obtain ⟨k, hk, rfl⟩ := List.mem_map.1 hj
    have hk := (List.mem_filter.1 hk).1
    exact hnext (hf k hk) (h k hk)
  · intro j hj
    obtain hj | hj := List.mem_append.1 hj
    · exact h j hj
    · rw [List.mem_singleton.1 hj]
      exact hnew p haccept

/-! ### Distinct identities (R1) -/

theorem Move.idsDistinct (m : s.Move live t) (h : s.IdsDistinct) : t.IdsDistinct := by
  obtain ⟨c, f, hjobs, hf⟩ | ⟨p, -, -, haccept, rfl⟩ := m.jobs_cases
  · have hids : t.jobs.map Job.id = (s.jobs.filter c).map Job.id := by
      rw [hjobs, List.map_map]
      exact List.map_congr_left fun j hj => (hf j (List.mem_filter.1 hj).1).id_eq
    rw [IdsDistinct, hids]
    exact h.sublist (List.filter_sublist.map _)
  · have hfresh := findJob_none_of_openAnswer_accept haccept
    show ((s.jobs ++ [s.newJob p _]).map Job.id).Nodup
    rw [List.map_append, List.nodup_append]
    refine ⟨h, List.nodup_singleton _, fun id hid id' hid' he => ?_⟩
    obtain ⟨j, hj, rfl⟩ := List.mem_map.1 hid
    rw [List.map_singleton, List.mem_singleton] at hid'
    exact findJob_none.1 hfresh j hj ((j.isFor_iff p _).1 ((j.isFor_iff_id p _).2 (he.trans hid')))

/-! ### abort_requested (R6, R91) -/

theorem Move.abortFlags (m : s.Move live t) (h : s.AbortFlags) : t.AbortFlags := by
  refine ⟨m.idsDistinct h.ids, m.forall_jobs h.flags (fun {j k} hnext hj => ?_) fun p _ => rfl⟩
  have hids := h.ids
  cases hnext with
  | same => exact hj
  | queued | granted | aborting =>
    obtain ⟨_, _, _, _, _, phase⟩ := j
    cases phase <;> first | exact hj | rfl
  | held o d ho => exact (ho hids).1
  | delivering o ho =>
    obtain ⟨d, raised, hph⟩ := ho hids
    rw [Job.isAborting, hph] at hj
    exact hj
  | raised now =>
    obtain ⟨_, _, _, _, _, phase⟩ := j
    rcases phase with _ | _ | _ | _ | ⟨o, d, r⟩ | _ <;> try exact hj
    cases d <;> exact hj

/-! ### The checks that an accepted OPEN has passed (Table 3-2) -/

theorem openFails_of_accept {p : Port} {r : OpenRecord} (h : s.openAnswer p r = .accept) {code : RespCode}
    (hcode : code ∈ openOrder) : s.openFails p r code = false := by
  rw [openAnswer_eq] at h
  cases hfirst : openOrder.find? (s.openFails p r) with
  | some first =>
    rw [hfirst] at h
    cases h
  | none => simpa using List.find?_eq_none.1 hfirst code hcode

/-! ### The lengths of the page lists (R27, R31) -/

theorem length_newJob {p : Port} {r : OpenRecord} (h : s.openAnswer p r = .accept) :
    (s.newJob p r).inputPages.length = inputPages r.k r.generated ∧
      (s.newJob p r).output.length = outputPages r.k r.softOutput := by
  have hspace : r.inPages + r.outPages ≤ s.free.length :=
    Nat.not_lt.1 (of_decide_eq_false (openFails_of_accept h (code := .noSpace) (by decide)))
  refine ⟨List.length_take_of_le (by omega), List.length_take_of_le ?_⟩
  show r.outPages ≤ _
  rw [List.length_drop]
  omega

theorem Move.listsSized (m : s.Move live t) (h : s.ListsSized) : t.ListsSized := by
  refine m.forall_jobs h (fun {j k} hnext hj => ?_) fun p haccept => ?_
  · rw [hnext.output_eq, hnext.params_eq]
    refine ⟨hj.1, fun hnone => ?_⟩
    obtain ⟨hinput, houtcome⟩ | ⟨-, houtcome⟩ := hnext.inputPages_cases
    · rw [hinput]
      exact hj.2 (houtcome ▸ hnone)
    · simp [hnone] at houtcome
  · obtain ⟨hinput, houtput⟩ := length_newJob haccept
    refine ⟨houtput, fun _ => ?_⟩
    show _ = inputPages _ (s.openRecord p).params.permSource.isGenerated
    rw [OpenRecord.isGenerated_params, hinput]
    rfl

/-! ### The ceilings (R17, R28) -/

theorem Move.profile_eq (m : s.Move live t) : t.profile = s.profile := by
  cases m with
  | trigger hj hs => rw [triggerJob_staging hj hs]
  | grant _ _ hj hs => rw [grantTo_queued hj hs]
  | free => exact freeJob_profile ..
  | abortReport => exact freeJob_profile ..
  | pending | unit | engine | memory | clearUnit | create | abort | complete | deliver | tick | deviceReset => rfl

theorem Move.deviceReset_eq (m : s.Move live t) : t.deviceReset = s.deviceReset ∨ t.jobs = [] := by
  cases m with
  | trigger hj hs => exact .inl (by rw [triggerJob_staging hj hs])
  | grant _ _ hj hs => exact .inl (by rw [grantTo_queued hj hs])
  | free => exact .inl (freeJob_deviceReset ..)
  | abortReport => exact .inl (freeJob_deviceReset ..)
  | pending | unit | engine | memory | clearUnit | create | abort | complete | deliver | tick => exact .inl rfl
  | deviceReset => exact .inr rfl

theorem jobsOf_map {f : Job → Job} {l : List Job} (hf : ∀ j ∈ l, (f j).owner = j.owner) (p : Port) :
    (l.map f).filter (·.owner == p) = (l.filter (·.owner == p)).map f := by
  rw [List.filter_map]
  exact congrArg _ (List.filter_congr fun j hj => by rw [Function.comp_apply, hf j hj])

/-- An accepted OPEN leaves its port within both ceilings and the table within 32 records (Table 3-2). -/
theorem WithinCeilings.createJob (h : s.WithinCeilings) {p : Port} {r : OpenRecord} (hreset : s.deviceReset = false)
    (haccept : s.openAnswer p r = .accept) : (s.createJob p r).WithinCeilings := by
  have hpass {code : RespCode} := openFails_of_accept (code := code) haccept
  have hentries : s.liveCount p ≠ s.profile.entryCeiling p := by
    simpa [openFails] using hpass (code := .quotaEntries) (by decide)
  have hpages : s.pagesHeld p + (inputPages r.k r.generated + outputPages r.k r.softOutput) ≤
      s.profile.pageCeiling p := by
    simpa [openFails] using hpass (code := .quotaPages) (by decide)
  have hdevice : s.jobs.length ≠ 32 := by simpa [openFails] using hpass (code := .noEntry) (by decide)
  have hnew : (s.newJob p r).pages.length = inputPages r.k r.generated + outputPages r.k r.softOutput := by
    obtain ⟨hinput, houtput⟩ := length_newJob haccept
    rw [Job.pages, List.length_append, hinput, houtput]
  have hown : (s.createJob p r).jobsOf p = s.jobsOf p ++ [s.newJob p r] :=
    (List.filter_append ..).trans (by simp [newJob, jobsOf])
  have hother {q : Port} (hq : p ≠ q) : (s.createJob p r).jobsOf q = s.jobsOf q :=
    (List.filter_append ..).trans (by simp [newJob, jobsOf, hq])
  refine ⟨fun hr => absurd (hreset.symm.trans hr) nofun, ?_, fun q => ?_, fun q => ?_⟩
  · have := h.device
    show (s.jobs ++ [s.newJob p r]).length ≤ 32
    rw [List.length_append, List.length_singleton]
    omega
  · have hle := h.entries q
    show _ ≤ s.profile.entryCeiling q
    by_cases hq : p = q
    · subst hq
      rw [liveCount] at hle hentries ⊢
      rw [hown, List.length_append, List.length_singleton]
      omega
    · rwa [liveCount, hother hq]
  · show _ ≤ s.profile.pageCeiling q
    by_cases hq : p = q
    · subst hq
      rwa [pagesHeld, hown, List.map_append, List.sum_append, List.map_singleton, List.sum_singleton, hnew]
    · rw [pagesHeld, hother hq]
      exact h.pages q

theorem Move.withinCeilings (m : s.Move live t) (h : s.WithinCeilings) : t.WithinCeilings := by
  obtain ⟨c, f, hjobs, hf⟩ | ⟨p, hreset, -, haccept, rfl⟩ := m.jobs_cases
  · have hlive {j : Job} (hj : j ∈ s.jobs.filter c) : j ∈ s.jobs := (List.mem_filter.1 hj).1
    have hof (p : Port) : t.jobsOf p = ((s.jobs.filter c).filter (·.owner == p)).map f := by
      rw [jobsOf, hjobs, jobsOf_map fun j hj => (hf j (hlive hj)).owner_eq]
    have hsub (p : Port) : ((s.jobs.filter c).filter (·.owner == p)).Sublist (s.jobsOf p) :=
      List.filter_sublist.filter _
    refine ⟨fun hr => ?_, ?_, fun p => ?_, fun p => ?_⟩
    · obtain hsame | hnone := m.deviceReset_eq
      · rw [hjobs, h.none_in_reset (hsame ▸ hr)]
        rfl
      · exact hnone
    · rw [hjobs, List.length_map]
      exact (List.length_filter_le ..).trans h.device
    · rw [liveCount, hof, List.length_map, m.profile_eq]
      exact (hsub p).length_le.trans (h.entries p)
    · rw [pagesHeld, hof, List.map_map, m.profile_eq]
      refine le_trans ?_ (h.pages p)
      calc (((s.jobs.filter c).filter (·.owner == p)).map ((·.pages.length) ∘ f)).sum
        _ ≤ (((s.jobs.filter c).filter (·.owner == p)).map (·.pages.length)).sum :=
          List.sum_le_sum fun j hj => (hf j (hlive (List.mem_filter.1 hj).1)).length_pages_le
        _ ≤ s.pagesHeld p := ((hsub p).map _).sum_le_sum fun _ _ => Nat.zero_le _
  · exact h.createJob hreset haccept

end State

/-- Settles O53: a move takes no record and no page but by an accepted OPEN, which has passed the checks of both ceilings and
takes lists of the counted lengths. -/
theorem stepKeepsWithinCeilings : Obligations.StepKeepsWithinCeilings := by
  refine ⟨fun s t h hstep => ?_, fun s t h hstep => ?_⟩
  · refine step_keeps (live := False) nofun (fun m h => m.withinCeilings h) (fun s pf hreset h => ?_) h hstep
    -- While the device reset is asserted no job is live, so any profile's ceilings hold.
    have hnone : s.jobs = [] := h.none_in_reset hreset
    refine ⟨nofun, h.device, fun p => ?_, fun p => ?_⟩
    all_goals simp [State.liveCount, State.pagesHeld, State.jobsOf, hnone]
  · exact step_keeps (live := False) nofun (fun m h => m.listsSized h) (fun _ _ _ h => h) h hstep

end Sys2Proof.Machine
end

section
/-! PROOF. The ties between the blocks (R47, R75, R82, R146) apart from everything else: the kind of the record that an
identity has, and what the slots, the windows, the queues and the engines name. Each move is one of nine changes of these. -/

namespace Sys2Proof.Machine

/-! ### The kind of a record -/

/-- The states of a live record by the block that each is tied to; DECODING and ABORTING are tied to the same. -/
inductive Job.Kind
  | staging | queued | onEngine (e : EngineId) | held | delivering
  deriving DecidableEq

namespace Job

def kind (j : Job) : Kind :=
  match j.phase with
  | .staging .. => .staging
  | .queued .. => .queued
  | .decoding _ _ e | .aborting _ _ e => .onEngine e
  | .held .. => .held
  | .delivering .. => .delivering

variable (j : Job)

theorem isStaging_iff_kind : j.isStaging = true ↔ j.kind = .staging := by
  cases hph : j.phase <;> simp [isStaging, kind, hph]

theorem isQueued_iff_kind : j.isQueued = true ↔ j.kind = .queued := by
  cases hph : j.phase <;> simp [isQueued, kind, hph]

theorem isDelivering_iff_kind : j.isDelivering = true ↔ j.kind = .delivering := by
  cases hph : j.phase <;> simp [isDelivering, kind, hph]

theorem engine_eq_some_iff_kind (e : EngineId) : j.engine = some e ↔ j.kind = .onEngine e := by
  cases hph : j.phase <;> simp [engine, kind, hph]

theorem isAborting_imp_kind (h : j.isAborting = true) : ∃ e, j.kind = .onEngine e := by
  cases hph : j.phase <;> simp [isAborting, kind, hph] at h ⊢

variable {j}

theorem kind_queued (h : j.isStaging = true) (clamp : Nat) : (j.queued clamp).kind = .queued := by
  obtain ⟨input, hph⟩ := j.isStaging_iff.1 h
  simp only [queued, kind, hph]

theorem kind_granted (h : j.isQueued = true) (e : EngineId) : (j.granted e).kind = .onEngine e := by
  unfold isQueued at h
  split at h
  · next hph => simp only [granted, kind, hph]
  all_goals cases h

@[simp] theorem kind_toAborting (j : Job) : j.toAborting.kind = j.kind := by
  obtain ⟨_, _, _, _, _, phase⟩ := j
  cases phase <;> rfl

@[simp] theorem kind_raiseExpiry (j : Job) (now : Tick) : (j.raiseExpiry now).kind = j.kind := by
  obtain ⟨_, _, _, _, _, phase⟩ := j
  rcases phase with _ | _ | _ | _ | ⟨o, d, r⟩ | _ <;> try rfl
  cases d <;> rfl

end Job

/-! ### The ties of a state -/

/-- The kind of the record of each identity, and the identities that the blocks name. -/
@[ext] structure Ties where
  kind   : JobId → Option Job.Kind
  slot   : Port → Option Tag
  window : Port → Option Tag
  queue  : Port → List Tag
  bound  : EngineId → Option JobId

def State.ties (s : State) : Ties :=
  { kind := fun id => (s.findJob id.owner id.tag).map Job.kind
    slot := fun p => (s.port p).slot
    window := fun p => (s.port p).window
    queue := s.queue
    bound := fun e => (s.engine e).bound }

namespace Ties

open Function (update)

/-- A record of a kind goes, and the tie that its kind has is undone. -/
def drop (s : Ties) (id : JobId) (k : Job.Kind) : Ties :=
  { s with
    kind := update s.kind id none
    slot := if k = .staging then update s.slot id.owner none else s.slot
    window := if k = .delivering then update s.window id.owner none else s.window
    queue := if k = .queued then update s.queue id.owner ((s.queue id.owner).filter (· != id.tag)) else s.queue }

/-- What an event does to the ties; only an idle engine takes a job. -/
inductive Change (idle : EngineId → Prop) (s : Ties) : Ties → Prop
  | same : Change idle s s
  /-- An OPEN (R44). -/
  | created (p : Port) (t : Tag) (hslot : s.slot p = none) (hkind : s.kind ⟨p, t⟩ = none) : Change idle s
      { s with kind := update s.kind ⟨p, t⟩ (some .staging), slot := update s.slot p (some t) }
  /-- A trigger (R71). -/
  | triggered {p : Port} {t : Tag} (hkind : s.kind ⟨p, t⟩ = some .staging) : Change idle s
      { s with kind := update s.kind ⟨p, t⟩ (some .queued), slot := update s.slot p none
               queue := update s.queue p (s.queue p ++ [t]) }
  /-- A grant (R80). -/
  | granted {e : EngineId} {p : Port} {t : Tag} {rest : List Tag} (hidle : idle e) (hqueue : s.queue p = t :: rest)
      (hkind : s.kind ⟨p, t⟩ = some .queued) : Change idle s
      { s with kind := update s.kind ⟨p, t⟩ (some (.onEngine e)), queue := update s.queue p rest
               bound := update s.bound e (some ⟨p, t⟩) }
  /-- A record leaves its engine: it is HELD, or gone. -/
  | finished {e : EngineId} {id : JobId} (hkind : s.kind id = some (.onEngine e)) {k : Option Job.Kind}
      (hk : k = none ∨ k = some .held) : Change idle s
      { s with kind := update s.kind id k, bound := update s.bound e none }
  /-- A delivery (R142). -/
  | delivered {p : Port} {t : Tag} (hkind : s.kind ⟨p, t⟩ = some .held) (hwindow : s.window p = none) : Change idle s
      { s with kind := update s.kind ⟨p, t⟩ (some .delivering), window := update s.window p (some t) }
  /-- A record that no engine holds is freed (R15). -/
  | freed {id : JobId} {k : Job.Kind} (hkind : s.kind id = some k) (hk : ∀ e, k ≠ .onEngine e) : Change idle s (s.drop id k)
  /-- A port unit is cleared, all records of its port on an engine (R127). -/
  | cleared {p : Port} (hport : ∀ t k, s.kind ⟨p, t⟩ = some k → ∃ e, k = .onEngine e) : Change idle s
      { s with slot := update s.slot p none, window := update s.window p none }
  /-- A device reset (R170). -/
  | reset : Change idle s ⟨fun _ => none, fun _ => none, fun _ => none, fun _ => [], fun _ => none⟩

theorem Change.of_eq {idle : EngineId → Prop} {s t t' : Ties} (h : s.Change idle t') (ht : t = t') : s.Change idle t :=
  ht ▸ h

end Ties

namespace State

variable {s t : State} {p : Port} {tag : Tag} {e : EngineId} {j : Job}

/-! ### The ties after the updates -/

/-- With distinct identities a live record is the one found. -/
theorem IdsDistinct.findJob_of_mem (h : s.IdsDistinct) (hj : j ∈ s.jobs) : s.findJob j.owner j.tag = some j := by
  cases hfind : s.findJob j.owner j.tag with
  | none => exact absurd ⟨rfl, rfl⟩ (findJob_none.1 hfind j hj)
  | some k => rw [h.eq_of_findJob hfind hj ((j.isFor_iff _ _).2 ⟨rfl, rfl⟩)]

theorem ties_kind_of_findJob (hj : s.findJob p tag = some j) : s.ties.kind ⟨p, tag⟩ = some j.kind := by
  show (s.findJob p tag).map Job.kind = _
  rw [hj]
  rfl

/-- A change of the record that an identity has. -/
theorem ties_kind_modJob (hj : s.findJob p tag = some j) {f : Job → Job} (hid : ∀ k : Job, (f k).id = k.id)
    (hjobs : t.jobs = (s.modJob p tag f).jobs) :
    t.ties.kind = Function.update s.ties.kind ⟨p, tag⟩ (some (f j).kind) := by
  have hkeeps (k : Job) : (f k).owner = k.owner ∧ (f k).tag = k.tag :=
    ⟨congrArg JobId.owner (hid k), congrArg JobId.tag (hid k)⟩
  funext ⟨q, u⟩
  show (t.findJob q u).map Job.kind = _
  rw [findJob_eq_of_jobs hjobs, Function.update_apply]
  split
  · next h =>
    cases h
    rw [findJob_modJob_self _ _ _ _ hkeeps, hj]
    rfl
  · next h =>
    rw [findJob_modJob_other _ _ hkeeps fun hqu => h (JobId.mk.injEq .. ▸ hqu)]
    rfl

/-- Changes that keep the identity and the kind of every record. -/
theorem ties_kind_map {f : Job → Job} (hid : ∀ j : Job, (f j).id = j.id) (hkind : ∀ j : Job, (f j).kind = j.kind)
    (hjobs : t.jobs = s.jobs.map f) : t.ties.kind = s.ties.kind := by
  funext ⟨q, u⟩
  show (t.jobs.find? fun k => k.isFor q u).map Job.kind = (s.jobs.find? fun k => k.isFor q u).map Job.kind
  have hfor : (fun k : Job => k.isFor q u) ∘ f = fun k => k.isFor q u :=
    funext fun k => Bool.eq_iff_iff.2 (by simp only [Function.comp_apply, Job.isFor_iff_id, hid])
  rw [hjobs, List.find?_map, hfor, Option.map_map]
  exact congrArg (Option.map · _) (funext hkind)

theorem ties_kind_freeJob (s : State) (j : Job) :
    (s.freeJob j).ties.kind = Function.update s.ties.kind j.id none := by
  have hjobs : (s.freeJob j).jobs = (s.dropJob j.owner j.tag).jobs := freeJob_jobs ..
  funext ⟨q, u⟩
  show ((s.freeJob j).findJob q u).map Job.kind = _
  rw [findJob_eq_of_jobs hjobs, Function.update_apply]
  split
  · next h =>
    cases h
    rw [findJob_dropJob_self]
    rfl
  · next h =>
    rw [findJob_dropJob_other _ fun hqu => h (JobId.mk.injEq .. ▸ hqu)]
    rfl

theorem ties_kind_createJob {r : OpenRecord} (hfresh : s.findJob p r.tag = none) :
    (s.createJob p r).ties.kind = Function.update s.ties.kind ⟨p, r.tag⟩ (some .staging) := by
  funext ⟨q, u⟩
  show ((s.jobs ++ [s.newJob p r]).find? fun k => k.isFor q u).map Job.kind = _
  rw [List.find?_append, List.find?_singleton, Function.update_apply]
  have hnew : (s.newJob p r).isFor q u = true ↔ (⟨q, u⟩ : JobId) = ⟨p, r.tag⟩ :=
    (Job.isFor_iff_id ..).trans eq_comm
  by_cases h : (⟨q, u⟩ : JobId) = ⟨p, r.tag⟩
  · have hnone : (s.jobs.find? fun k => k.isFor q u) = none := by
      cases h
      exact hfresh
    rw [if_pos h, if_pos (hnew.2 h), hnone]
    rfl
  · rw [if_neg h, if_neg (mt hnew.1 h), Option.or_none]
    rfl

/-- A port's item after a change of one port unit. -/
theorem item_of_ports {α : Type} {v : PortUnit} (h : t.ports = s.ports.set p v) (item : PortUnit → α) :
    (fun q => item (t.port q)) = Function.update (fun q => item (s.port q)) p (item v) := by
  funext q
  rw [Function.update_apply, port, h]
  split
  · next hq => rw [hq, PerPort.get_set_self]
  · next hq => rw [PerPort.get_set_ne _ _ hq]; rfl

theorem item_of_ports_same {α : Type} {v : PortUnit} (h : t.ports = s.ports.set p v) (item : PortUnit → α)
    (hsame : item v = item (s.port p)) : (fun q => item (t.port q)) = fun q => item (s.port q) := by
  rw [item_of_ports h, hsame]
  exact Function.update_eq_self ..

theorem queue_modQueue (s : State) (p : Port) (f : List Tag → List Tag) :
    (s.modQueue p f).queue = Function.update s.queue p (f (s.queue p)) := by
  funext q
  rw [Function.update_apply]
  split
  · next h => rw [h, queue_modQueue_self]
  · next h => rw [queue_modQueue_ne _ _ h]

theorem bound_modEngine (s : State) (e : EngineId) (f : Engine → Engine) :
    (fun d => ((s.modEngine e f).engine d).bound) =
      Function.update (fun d => (s.engine d).bound) e (f (s.engine e)).bound := by
  funext d
  rw [Function.update_apply]
  split
  · next h => rw [h, engine_modEngine_self]
  · next h => rw [engine_modEngine_ne _ _ h]

/-- The owner's port unit after a freeing (R15). -/
theorem ports_freeJob (s : State) (j : Job) : (s.freeJob j).ports = s.ports.set j.owner { s.port j.owner with
    slot := if j.isStaging then none else (s.port j.owner).slot
    checker := if j.isStaging then Checker.cleared else (s.port j.owner).checker
    window := if j.isDelivering then none else (s.port j.owner).window } := by
  rw [freeJob_eq_freed]
  rfl

/-- Freeing a record undoes the tie that its kind has. -/
theorem ties_freeJob (s : State) (j : Job) : (s.freeJob j).ties = s.ties.drop j.id j.kind := by
  refine Ties.ext (ties_kind_freeJob s j) ((item_of_ports (ports_freeJob s j) PortUnit.slot).trans ?_)
    ((item_of_ports (ports_freeJob s j) PortUnit.window).trans ?_) ?_ ?_
  · simp only [Ties.drop, j.isStaging_iff_kind]
    split
    · rfl
    · exact Function.update_eq_self ..
  · simp only [Ties.drop, j.isDelivering_iff_kind]
    split
    · rfl
    · exact Function.update_eq_self ..
  · show (s.freeJob j).queue = _
    rw [freeJob_eq_freed]
    simp only [Ties.drop, ← j.isQueued_iff_kind]
    refine (queue_modQueue s j.owner fun q => if j.isQueued then q.filter (· != j.tag) else q).trans ?_
    split
    · rfl
    · exact Function.update_eq_self ..
  · exact funext fun e => congrArg Engine.bound (engine_eq_of_engines (freeJob_engines s j) e)

/-! ### A move as a change of the ties -/

theorem Move.ties (m : s.Move True t) (hids : s.IdsDistinct) :
    s.ties.Change (fun e => (s.engine e).stage = .idle) t.ties := by
  cases m with
  | pending | memory => exact .same
  | unit hf =>
    exact .of_eq .same (Ties.ext rfl (item_of_ports_same (modPort_ports ..) PortUnit.slot hf.slot)
      (item_of_ports_same (modPort_ports ..) PortUnit.window hf.window) rfl rfl)
  | engine hf =>
    refine .of_eq .same (Ties.ext rfl rfl rfl rfl ((bound_modEngine ..).trans ?_))
    rw [hf.bound]
    exact Function.update_eq_self ..
  | abort c =>
    refine .of_eq .same (Ties.ext (ties_kind_map (fun j => ?_) (fun j => ?_) rfl) rfl rfl rfl rfl) <;> split
    · exact j.keptBy_toAborting.1
    · rfl
    · exact j.kind_toAborting
    · rfl
  | tick now =>
    refine .of_eq .same (Ties.ext (ties_kind_map (fun j => ?_) (fun j => j.kind_raiseExpiry now) rfl) rfl rfl rfl rfl)
    exact (j.keptBy_raiseExpiry now).1
  | @create p _ _ haccept =>
    have hslot : (s.port p).slot = none := by
      simpa [openFails] using openFails_of_accept haccept (code := .stagingBusy) (by decide)
    have hfresh := findJob_none_of_openAnswer_accept haccept
    refine .of_eq (.created p (s.openRecord p).tag hslot (congrArg (Option.map Job.kind) hfresh)) (Ties.ext
      (ties_kind_createJob hfresh) ?_ ?_ rfl rfl)
    · exact item_of_ports (createJob_ports ..) PortUnit.slot
    · exact item_of_ports_same (createJob_ports ..) PortUnit.window rfl
  | @trigger p tag j hj hs =>
    have hports : (s.triggerJob p tag).ports = s.ports.set p { s.port p with slot := none, checker := Checker.cleared } := by
      rw [triggerJob_staging hj hs]
    refine .of_eq (.triggered ((ties_kind_of_findJob hj).trans (congrArg some (j.isStaging_iff_kind.1 hs))))
      (Ties.ext ?_ (item_of_ports hports PortUnit.slot) (item_of_ports_same hports PortUnit.window rfl) ?_ ?_)
    · exact (ties_kind_modJob hj (fun k => (k.keptBy_queued _).1) (triggerJob_jobs hj hs)).trans
        (by rw [Job.kind_queued hs])
    · rw [triggerJob_staging hj hs]
      exact queue_modQueue s p (· ++ [tag])
    · rw [triggerJob_staging hj hs]
      rfl
  | @grant e p tag rest j hidle hq hj hs =>
    rw [grantTo_queued hj hs]
    refine .of_eq (.granted hidle hq ((ties_kind_of_findJob hj).trans (congrArg some (j.isQueued_iff_kind.1 hs))))
      (Ties.ext ?_ rfl rfl ?_ ?_)
    · exact (ties_kind_modJob hj (fun k => (k.keptBy_granted e).1) rfl).trans (by rw [Job.kind_granted hs])
    · exact (queue_modQueue s p (·.drop 1)).trans (by rw [hq]; rfl)
    · exact bound_modEngine s e (·.startPrime ⟨p, tag⟩ j.params)
  | @free j hj he =>
    rw [ties_freeJob]
    refine .freed (ties_kind_of_findJob (hids.findJob_of_mem (hj trivial))) fun e hk => ?_
    rw [Job.onEngine, (j.engine_eq_some_iff_kind e).2 hk] at he
    cases he
  | @abortReport e j hj he =>
    have hk := (j.engine_eq_some_iff_kind e).1 he
    have hfreed := ties_freeJob s j
    simp only [Ties.drop, hk, reduceCtorEq, if_false] at hfreed
    obtain ⟨hkind, hslot, hwindow, hqueue, hbound⟩ := Ties.ext_iff.1 hfreed
    exact .of_eq (.finished ((ties_kind_of_findJob hj).trans (congrArg some hk)) (.inl rfl)) (Ties.ext hkind hslot hwindow
      hqueue ((bound_modEngine (s.freeJob j) e Engine.toIdle).trans
        (congrArg (fun b : EngineId → Option JobId => Function.update b e none) hbound)))
  | @complete e j o d hj he _ =>
    have hk := (j.engine_eq_some_iff_kind e).1 he
    refine .of_eq (.finished ((ties_kind_of_findJob hj).trans (congrArg some hk)) (.inr rfl))
      (Ties.ext ?_ rfl rfl rfl (bound_modEngine _ e Engine.toIdle))
    exact ties_kind_modJob hj (f := fun k => { k with phase := .held o d false }) (fun _ => rfl) rfl
  | @deliver p tag j o d raised hj hs hw =>
    have hk : j.kind = .held := by simp only [Job.kind, hs]
    have hports : (s.deliver p tag o).ports = s.ports.set p { s.port p with window := some tag } := rfl
    refine .of_eq (.delivered ((ties_kind_of_findJob hj).trans (congrArg some hk)) hw) (Ties.ext ?_
      (item_of_ports_same hports PortUnit.slot rfl) (item_of_ports hports PortUnit.window) rfl rfl)
    exact ties_kind_modJob hj (f := fun k => { k with phase := .delivering o }) (fun _ => rfl) rfl
  | @clearUnit p f hjobs hunit =>
    obtain ⟨hslot, hwindow, -⟩ := hunit (s.port p)
    refine .of_eq (.cleared (p := p) fun u k hk => ?_) (Ties.ext rfl ?_ ?_ rfl rfl)
    · obtain ⟨j, hj, rfl⟩ := Option.map_eq_some_iff.1 hk
      obtain ⟨hmem, howner, -⟩ := findJob_some hj
      exact j.isAborting_imp_kind (hjobs j hmem howner)
    · exact (item_of_ports (modPort_ports s p f) PortUnit.slot).trans (by rw [hslot]; rfl)
    · exact (item_of_ports (modPort_ports s p f) PortUnit.window).trans (by rw [hwindow]; rfl)
  | @deviceReset units hunits =>
    refine .of_eq .reset (Ties.ext rfl (funext fun p => ?_) (funext fun p => ?_) ?_ ?_)
    · obtain ⟨bus, hunit⟩ := hunits p
      exact congrArg PortUnit.slot hunit
    · obtain ⟨bus, hunit⟩ := hunits p
      exact congrArg PortUnit.window hunit
    · exact funext fun p => by cases p <;> rfl
    · exact funext fun e => by cases e <;> rfl

/-! ### The laws of the ties -/

/-- With distinct identities a live record of a kind is the record found. -/
theorem IdsDistinct.exists_isFor_iff (h : s.IdsDistinct) {Law : Job → Prop} {k : Job.Kind}
    (hk : ∀ j : Job, Law j ↔ j.kind = k) (p : Port) (tag : Tag) :
    (∃ j ∈ s.jobs, j.isFor p tag = true ∧ Law j) ↔ s.ties.kind ⟨p, tag⟩ = some k := by
  constructor
  · rintro ⟨j, hj, hfor, hlaw⟩
    obtain ⟨rfl, rfl⟩ := (j.isFor_iff p tag).1 hfor
    rw [ties_kind_of_findJob (h.findJob_of_mem hj), (hk j).1 hlaw]
  · intro hkind
    obtain ⟨j, hj, hjk⟩ := Option.map_eq_some_iff.1 hkind
    obtain ⟨hmem, hfor⟩ := findJob_some hj
    exact ⟨j, hmem, (j.isFor_iff p tag).2 hfor, (hk j).2 hjk⟩

end State

namespace Ties

open Function (update_apply)

variable {s t : Ties} {idle : EngineId → Prop}

theorem kind_drop (s : Ties) (id : JobId) (k : Job.Kind) (id' : JobId) :
    (s.drop id k).kind id' = if id' = id then none else s.kind id' := update_apply ..

theorem slot_drop (s : Ties) (id : JobId) (k : Job.Kind) (p : Port) :
    (s.drop id k).slot p = if k = .staging ∧ p = id.owner then none else s.slot p := by
  by_cases hk : k = .staging <;> simp [drop, hk, update_apply]

theorem window_drop (s : Ties) (id : JobId) (k : Job.Kind) (p : Port) :
    (s.drop id k).window p = if k = .delivering ∧ p = id.owner then none else s.window p := by
  by_cases hk : k = .delivering <;> simp [drop, hk, update_apply]

theorem queue_drop (s : Ties) (id : JobId) (k : Job.Kind) (p : Port) :
    (s.drop id k).queue p =
      if k = .queued ∧ p = id.owner then (s.queue p).filter (· != id.tag) else s.queue p := by
  by_cases hk : k = .queued <;> simp [drop, hk, update_apply]
  grind

/-- R47. -/
def SlotsTied (s : Ties) : Prop := ∀ p tag, s.slot p = some tag ↔ s.kind ⟨p, tag⟩ = some .staging

/-- R75. -/
def QueuesTied (s : Ties) : Prop :=
  (∀ p, (s.queue p).Nodup) ∧ ∀ p tag, tag ∈ s.queue p ↔ s.kind ⟨p, tag⟩ = some .queued

/-- R146. -/
def WindowsTied (s : Ties) : Prop := ∀ p tag, s.window p = some tag ↔ s.kind ⟨p, tag⟩ = some .delivering

/-- R82. -/
def BindingsTied (s : Ties) : Prop := ∀ e id, s.bound e = some id ↔ s.kind id = some (.onEngine e)

theorem Change.slotsTied (c : s.Change idle t) (h : s.SlotsTied) : t.SlotsTied := by
  intro q u
  unfold SlotsTied at h
  cases c with
  | same => exact h q u
  | reset => simp
  | @freed id k hkind _ =>
    obtain ⟨p, tag⟩ := id
    have hfreed := h p tag
    grind [kind_drop, slot_drop]
  | created | triggered | granted | finished | delivered | cleared => grind [update_apply]

theorem Change.windowsTied (c : s.Change idle t) (h : s.WindowsTied) : t.WindowsTied := by
  intro q u
  unfold WindowsTied at h
  cases c with
  | same => exact h q u
  | reset => simp
  | @freed id k hkind _ =>
    obtain ⟨p, tag⟩ := id
    have hfreed := h p tag
    grind [kind_drop, window_drop]
  | created | triggered | granted | finished | delivered | cleared => grind [update_apply]

theorem Change.bindingsTied (c : s.Change idle t) (hidle : ∀ e, idle e → s.bound e = none) (h : s.BindingsTied) : t.BindingsTied := by
  intro d id
  unfold BindingsTied at h
  cases c with
  | same => exact h d id
  | reset => simp
  | @freed id k hkind hk =>
    have hbound : (s.drop id k).bound d = s.bound d := rfl
    grind [kind_drop]
  | @finished e id' hkind k hk =>
    have hbound := (h e id').2 hkind
    grind [update_apply]
  | created | triggered | granted | delivered | cleared => grind [update_apply]

theorem Change.queuesTied (c : s.Change idle t) (h : s.QueuesTied) : t.QueuesTied := by
  obtain ⟨hnodup, h⟩ := h
  refine ⟨fun q => ?_, fun q u => ?_⟩
  · have hq := hnodup q
    cases c with
    | same | created | finished | delivered | cleared => exact hq
    | reset => exact List.nodup_nil
    | freed =>
      rw [queue_drop]
      split
      · exact hq.filter _
      · exact hq
    | @triggered p tag hkind =>
      have hnew : tag ∉ s.queue p := fun hmem => by
        rw [h, hkind] at hmem
        cases hmem
      show (Function.update s.queue p _ q).Nodup
      rw [update_apply]
      split
      · exact List.nodup_append.2 ⟨hnodup p, List.nodup_singleton tag, by grind⟩
      · exact hq
    | @granted e p tag rest _ hqueue _ =>
      show (Function.update s.queue p _ q).Nodup
      rw [update_apply]
      split
      · exact (List.nodup_cons.1 (hqueue ▸ hnodup p)).2
      · exact hq
  · cases c with
    | same => exact h q u
    | reset => simp
    | @freed id k hkind _ =>
      obtain ⟨p, tag⟩ := id
      have hfreed := h p tag
      grind [kind_drop, queue_drop]
    | @granted e p tag rest _ hqueue _ =>
      have hrest : tag ∉ rest := (List.nodup_cons.1 (hqueue ▸ hnodup p)).1
      grind [update_apply]
    | created | triggered | finished | delivered | cleared => grind [update_apply]

end Ties

namespace State

variable {s : State}

theorem slotsTied_iff : s.SlotsTied ↔ s.IdsDistinct ∧ s.ties.SlotsTied := by
  refine ⟨fun h => ⟨h.ids, fun p tag => ?_⟩, fun ⟨hids, h⟩ => ⟨hids, fun p tag => ?_⟩⟩
  · exact (h.slots p tag).trans (h.ids.exists_isFor_iff Job.isStaging_iff_kind p tag)
  · exact (h p tag).trans (hids.exists_isFor_iff Job.isStaging_iff_kind p tag).symm

theorem queuesTied_iff : s.QueuesTied ↔ s.IdsDistinct ∧ s.ties.QueuesTied := by
  refine ⟨fun h => ⟨h.ids, h.once, fun p tag => ?_⟩, fun ⟨hids, honce, h⟩ => ⟨hids, honce, fun p tag => ?_⟩⟩
  · exact (h.queues p tag).trans (h.ids.exists_isFor_iff Job.isQueued_iff_kind p tag)
  · exact (h p tag).trans (hids.exists_isFor_iff Job.isQueued_iff_kind p tag).symm

theorem windowsTied_iff : s.WindowsTied ↔ s.IdsDistinct ∧ s.ties.WindowsTied := by
  refine ⟨fun h => ⟨h.ids, fun p tag => ?_⟩, fun ⟨hids, h⟩ => ⟨hids, fun p tag => ?_⟩⟩
  · exact (h.windows p tag).trans (h.ids.exists_isFor_iff Job.isDelivering_iff_kind p tag)
  · exact (h p tag).trans (hids.exists_isFor_iff Job.isDelivering_iff_kind p tag).symm

/-- The binding law with its clause on idle engines, which is no tie. -/
theorem bindingsTied_iff : s.BindingsTied ↔
    s.IdsDistinct ∧ (∀ e, (s.engine e).stage = .idle ↔ (s.engine e).bound = none) ∧ s.ties.BindingsTied := by
  refine ⟨fun h => ⟨h.ids, h.idle, fun e id => ?_⟩, fun ⟨hids, hidle, h⟩ => ⟨hids, hidle, fun e p tag => ?_⟩⟩
  · exact (h.bindings e id.owner id.tag).trans
      (h.ids.exists_isFor_iff (fun j => j.engine_eq_some_iff_kind e) id.owner id.tag)
  · exact (h e ⟨p, tag⟩).trans (hids.exists_isFor_iff (fun j => j.engine_eq_some_iff_kind e) p tag).symm

/-! ### Idle engines (R82) -/

/-- What a move makes of an engine: it stays, it works on, it begins PRIME for a live job, or it is idle. -/
theorem Move.engine_cases {live : Prop} {t : State} (m : s.Move live t) (e : EngineId) :
    t.engine e = s.engine e ∨ (s.engine e).Evolves (t.engine e) ∨
      (∃ j ∈ s.jobs, t.engine e = (s.engine e).startPrime j.id j.params) ∨ ∃ g : Engine, t.engine e = g.toIdle := by
  have hother {s : State} {d : EngineId} {f : Engine → Engine} (h : e ≠ d) : (s.modEngine d f).engine e = s.engine e :=
    engine_modEngine_ne _ _ h
  have hfreed (j : Job) : (s.freeJob j).engine = s.engine := funext fun d => engine_eq_of_engines (freeJob_engines s j) d
  cases m with
  | pending | unit | memory | create | abort | deliver | tick | clearUnit => exact .inl rfl
  | trigger hj hs => exact .inl (by rw [triggerJob_staging hj hs]; rfl)
  | free hj he => exact .inl (congrFun (hfreed _) e)
  | @engine d f hf =>
    by_cases h : e = d
    · subst h
      exact .inr (.inl (by rwa [engine_modEngine_self]))
    · exact .inl (hother h)
  | @grant d p tag rest j _ _ hj hs =>
    have hstart : (s.grantTo d p tag).engine e = (s.modEngine d (·.startPrime ⟨p, tag⟩ j.params)).engine e := by
      rw [grantTo_queued hj hs]
      rfl
    rw [hstart]
    by_cases h : e = d
    · subst h
      obtain ⟨hmem, rfl, rfl⟩ := findJob_some hj
      exact .inr (.inr (.inl ⟨j, hmem, engine_modEngine_self ..⟩))
    · exact .inl (hother h)
  | @abortReport d j =>
    by_cases h : e = d
    · subst h
      exact .inr (.inr (.inr ⟨_, engine_modEngine_self ..⟩))
    · exact .inl ((hother h).trans (congrFun (hfreed j) e))
  | @complete d j =>
    by_cases h : e = d
    · subst h
      exact .inr (.inr (.inr ⟨_, engine_modEngine_self ..⟩))
    · exact .inl (hother h)
  | deviceReset => exact .inr (.inr (.inr ⟨Engine.reset, by cases e <;> rfl⟩))

theorem Move.idle_iff_bound_none {live : Prop} {t : State} (m : s.Move live t)
    (h : ∀ e, (s.engine e).stage = .idle ↔ (s.engine e).bound = none) (e : EngineId) :
    (t.engine e).stage = .idle ↔ (t.engine e).bound = none := by
  obtain hsame | hworks | ⟨j, -, hstart⟩ | ⟨g, hidle⟩ := m.engine_cases e
  · rw [hsame]
    exact h e
  · have hbound : (t.engine e).bound ≠ none := hworks.bound ▸ fun hnone => hworks.busy.1 ((h e).2 hnone)
    exact iff_of_false hworks.busy.2 hbound
  · rw [hstart]
    exact iff_of_false nofun nofun
  · rw [hidle]
    exact iff_of_true rfl rfl

end State

/-- Settles O55: the slots name the identities of the STAGING kind, through each of the nine changes of the ties. -/
theorem stepKeepsSlotsTied : Obligations.StepKeepsSlotsTied := by
  intro s t h hstep
  refine step_keeps (live := True) (fun _ _ h => h.ids) (fun m h => ?_) (fun _ _ _ h => ⟨h.ids, h.slots⟩) h hstep
  obtain ⟨hids, hties⟩ := State.slotsTied_iff.1 h
  exact State.slotsTied_iff.2 ⟨m.idsDistinct hids, (m.ties hids).slotsTied hties⟩

/-- Settles O54: the queues hold the identities of the QUEUED kind, each once. -/
theorem stepKeepsQueuesTied : Obligations.StepKeepsQueuesTied := by
  intro s t h hstep
  refine step_keeps (live := True) (fun _ _ h => h.ids) (fun m h => ?_) (fun _ _ _ h => ⟨h.ids, h.once, h.queues⟩) h hstep
  obtain ⟨hids, hties⟩ := State.queuesTied_iff.1 h
  exact State.queuesTied_iff.2 ⟨m.idsDistinct hids, (m.ties hids).queuesTied hties⟩

/-- Settles O56: the windows name the identities of the DELIVERING kind. -/
theorem stepKeepsWindowsTied : Obligations.StepKeepsWindowsTied := by
  intro s t h hstep
  refine step_keeps (live := True) (fun _ _ h => h.ids) (fun m h => ?_) (fun _ _ _ h => ⟨h.ids, h.windows⟩) h hstep
  obtain ⟨hids, hties⟩ := State.windowsTied_iff.1 h
  exact State.windowsTied_iff.2 ⟨m.idsDistinct hids, (m.ties hids).windowsTied hties⟩

/-- Settles O57: the bindings name the identities of the records on each engine, and an engine is idle without one. -/
theorem stepKeepsBindingsTied : Obligations.StepKeepsBindingsTied := by
  intro s t h hstep
  refine step_keeps (live := True) (fun _ _ h => h.ids) (fun m h => ?_) (fun _ _ _ h => ⟨h.ids, h.idle, h.bindings⟩) h
    hstep
  obtain ⟨hids, hidle, hties⟩ := State.bindingsTied_iff.1 h
  exact State.bindingsTied_iff.2 ⟨m.idsDistinct hids, m.idle_iff_bound_none hidle, (m.ties hids).bindingsTied (fun e => (hidle e).1) hties⟩

end Sys2Proof.Machine
end

section
/-! PROOF. The engines (chapter 5), the held ports (R130) and the bounds of the port units (R55, R56, R175), move by move. -/

namespace Sys2Proof.Machine

/-! ### Legal params (R4, Table 3-3) -/

theorem field_lt (w : Word) (lo width : Nat) : field w lo width < 2 ^ width := BitVec.isLt _

/-- A record that passes Table 3-3 gives legal params; its stop rule and max_iter have the widths of their fields. -/
theorem OpenRecord.legal_params {r : OpenRecord} (h : paramOrder.any r.fails = false) (hmax : r.maxIter < 16)
    (hrule : r.stopRule < 4) : r.params.Legal := by
  have hpass (n : Nat) (hn : n ∈ paramOrder) : r.fails n = false := by simpa using List.any_eq_false.1 h n hn
  have hk := hpass 1 (by decide)
  have hmod := hpass 2 (by decide)
  have hzero := hpass 3 (by decide)
  have hmin := hpass 4 (by decide)
  have hmatches := hpass 5 (by decide)
  have hchecksum := hpass 6 (by decide)
  have hthreshold := hpass 7 (by decide)
  have hperm := hpass 8 (by decide)
  simp only [fails, Bool.or_eq_false_iff, Bool.and_eq_false_imp, decide_eq_false_iff_not, beq_eq_false_iff_ne,
    bne_eq_false_iff_eq, Bool.or_eq_true, beq_iff_eq, not_lt, not_le] at hk hmod hzero hmin hmatches hchecksum hthreshold hperm
  refine ⟨hk, ⟨hmin, ?_, ?_⟩, ⟨?_, hmatches.2⟩, hthreshold, fun huses => ?_, fun f1 f2 hsource => ?_⟩
  · show 1 ≤ r.maxIter
    omega
  · show r.maxIter ≤ 15
    omega
  · show 1 ≤ r.requiredMatches
    omega
  · -- Only codes 1 and 3 use the checksum, and with them code 0 of the kind is refused.
    have hcode : r.stopRule = 1 ∨ r.stopRule = 3 := by
      change (stopRuleOf r.stopRule).usesChecksum = true at huses
      generalize r.stopRule = n at huses hrule
      interval_cases n <;> simp [stopRuleOf, StopRule.usesChecksum] at huses ⊢
    have hkind := hchecksum hcode
    show checksumKindOf r.checksumKind ≠ .none
    unfold checksumKindOf
    split <;> simp_all
  · change (if r.generated then PermSource.generated r.f1 r.f2 else .client) = _ at hsource
    split at hsource
    · next hgen =>
      cases hsource
      obtain ⟨⟨hf1, hf1k⟩, hf2k⟩ := hperm hgen
      exact ⟨by omega, hf1k, hf2k, hmod hgen⟩
    · cases hsource

theorem Engine.sound_toIdle (g : Engine) : g.toIdle.Sound := ⟨rfl, rfl, rfl, rfl, rfl, rfl, rfl⟩

/-- A record gets on an engine by a grant, when the engine leaves IDLE (R80). -/
theorem Job.Next.engine_cases {ids : Prop} {starts : EngineId → Prop} {j k : Job} (h : j.Next ids starts k)
    (he : k.engine = some e) : j.engine = some e ∨ starts e := by
  cases h with
  | same => exact .inl he
  | @granted d hstarts =>
    obtain ⟨_, _, _, _, _, phase⟩ := j
    cases phase with
    | queued =>
      cases he
      exact .inr hstarts
    | staging | decoding | aborting | held | delivering => exact .inl he
  | queued | aborting =>
    obtain ⟨_, _, _, _, _, phase⟩ := j
    cases phase <;> exact .inl he
  | held | delivering => cases he
  | raised =>
    obtain ⟨_, _, _, _, _, phase⟩ := j
    rcases phase with _ | _ | _ | _ | ⟨o, d, r⟩ | _ <;> try exact .inl he
    cases d <;> cases he

/-- An ABORTING record stays so until it is freed. -/
theorem Job.Next.isAborting {ids : Prop} {starts : EngineId → Prop} {j k : Job} (h : j.Next ids starts k) (hids : ids)
    (hflag : j.abortRequested = j.isAborting) (habort : j.isAborting = true) : k.isAborting = true := by
  cases h with
  | same => exact habort
  | held o d ho =>
    rw [(ho hids).1, habort] at hflag
    cases hflag
  | delivering o ho =>
    obtain ⟨d, raised, hph⟩ := ho hids
    simp [Job.isAborting, hph] at habort
  | queued | granted | aborting | raised =>
    obtain ⟨_, _, _, _, _, phase⟩ := j
    cases phase with
    | aborting => rfl
    | staging | queued | decoding | held | delivering => cases habort

namespace State

variable {live : Prop} {s t : State} {p : Port} {e : EngineId} {j : Job}

theorem legal_newJob (h : s.openAnswer p (s.openRecord p) = .accept) : (s.newJob p (s.openRecord p)).params.Legal :=
  OpenRecord.legal_params (openFails_of_accept h (code := .param) (by decide)) (field_lt _ 20 4) (field_lt _ 24 2)

theorem Move.paramsLegal (m : s.Move live t) (h : s.ParamsLegal) : t.ParamsLegal :=
  m.forall_jobs h (fun hnext hj => hnext.params_eq ▸ hj) fun _ haccept => legal_newJob haccept

/-! ### Sound engines (R89, R90) -/

theorem Move.enginesSound (m : s.Move live t) (h : s.EnginesSound) : t.EnginesSound := by
  refine ⟨m.paramsLegal h.params, fun e => ?_⟩
  obtain hsame | hworks | ⟨j, hj, hstart⟩ | ⟨g, hidle⟩ := m.engine_cases e
  · rw [hsame]
    exact h.engines e
  · exact hworks.sound (h.engines e)
  · rw [hstart]
    exact (Engine.sound_prime_iff rfl rfl).2 ⟨rfl, rfl, rfl, (h.params j hj).iters.2.1⟩
  · rw [hidle]
    exact g.sound_toIdle

theorem Move.paramsCopied (m : s.Move live t) (h : s.ParamsCopied) : t.ParamsCopied := by
  have hids := m.idsDistinct h.ids
  refine ⟨hids, fun e k hk hbound he => ?_⟩
  obtain ⟨c, f, hjobs, hf⟩ | ⟨p, -, -, -, rfl⟩ := m.jobs_cases
  · rw [hjobs] at hk
    obtain ⟨j, hj, rfl⟩ := List.mem_map.1 hk
    have hj := (List.mem_filter.1 hj).1
    have hnext := hf j hj
    rw [hnext.id_eq] at hbound
    rw [hnext.params_eq]
    obtain hsame | hworks | ⟨i, hi, hstart⟩ | ⟨g, hidle⟩ := m.engine_cases e
    · have hold : j.engine = some e := (hnext.engine_cases he).resolve_right fun hs => hs.2 (hsame ▸ hs.1)
      rw [hsame] at hbound ⊢
      exact h.copied e j hj hbound hold
    · have hold : j.engine = some e := (hnext.engine_cases he).resolve_right fun hs => hworks.busy.1 hs.1
      rw [hworks.params]
      exact h.copied e j hj (hworks.bound ▸ hbound) hold
    · rw [hstart] at hbound ⊢
      rw [h.ids.eq_of_id hi hj (Option.some.inj hbound)]
      rfl
    · rw [hidle] at hbound
      cases hbound
  · obtain hk | hk := List.mem_append.1 hk
    · exact h.copied e k hk hbound he
    · rw [List.mem_singleton.1 hk] at he
      cases he

/-! ### A port unit after a move -/

/-- What a move makes of a port unit: it goes on, it is cleared when no job of its port is left but to be aborted, or its
ties change, with the checker as it was or one that has counted nothing. -/
inductive UnitNext (s t : State) (p : Port) : Prop
  | evolves (h : (s.port p).Evolves (t.port p))
  | cleared (hlinks : (t.port p).slot = none ∧ (t.port p).window = none)
      (hwords : (t.port p).notices = [] ∧ (t.port p).raw = 0#5) (hchecker : (t.port p).checker = Checker.cleared)
      (hjobs : ∀ j ∈ t.jobs, j.owner = p → j.isAborting = true)
  | tied {slot window : Option Tag} {c : Checker}
      (hunit : t.port p = { s.port p with slot := slot, window := window, checker := c })
      (hslot : slot = none ∨ slot = (s.port p).slot ∨ (s.port p).resetHeld = false)
      (hwindow : window = none ∨ window = (s.port p).window ∨ ∃ j ∈ s.jobs, j.owner = p ∧ j.isAborting = false)
      (hchecker : c = (s.port p).checker ∨ ((∀ st, c.received.get st = 0) ∧ c.clamp = 0))

theorem UnitNext.of_ports (h : t.ports = s.ports) (p : Port) : UnitNext s t p :=
  .evolves (port_eq_of_ports h p ▸ .of_eq rfl rfl rfl rfl)

/-- A move that changes the unit of one port leaves the others. -/
theorem UnitNext.of_set {v : PortUnit} {q : Port} (h : t.ports = s.ports.set q v)
    (hself : t.port q = v → UnitNext s t q) (p : Port) : UnitNext s t p := by
  by_cases hp : p = q
  · subst hp
    exact hself (by rw [port, h, PerPort.get_set_self])
  · have hsame : t.port p = s.port p := by rw [port, h, PerPort.get_set_ne _ _ hp, port]
    exact .evolves (hsame ▸ .of_eq rfl rfl rfl rfl)

theorem Checker.received_cleared : (∀ st, Checker.cleared.received.get st = 0) ∧ Checker.cleared.clamp = 0 :=
  ⟨fun st => by cases st <;> rfl, rfl⟩

theorem unitNext_freeJob (hports : t.ports = (s.freeJob j).ports) (p : Port) : UnitNext s t p := by
  refine .of_set (hports.trans (ports_freeJob s j)) (fun hunit => .tied hunit ?_ ?_ ?_) p
  all_goals split
  · exact .inl rfl
  · exact .inr (.inl rfl)
  · exact .inl rfl
  · exact .inr (.inl rfl)
  · exact .inr Checker.received_cleared
  · exact .inl rfl

theorem Move.unitNext (m : s.Move live t) (p : Port) : UnitNext s t p := by
  cases m with
  | pending | engine | memory | abort | complete | tick =>
    refine .of_ports ?_ p
    rfl
  | grant _ _ hj hs =>
    refine .of_ports ?_ p
    rw [grantTo_queued hj hs]
  | unit hf => exact .of_set (modPort_ports ..) (fun hunit => .evolves (hunit ▸ hf)) p
  | create _ hline _ =>
    exact .of_set (createJob_ports ..) (fun hunit => .tied hunit (.inr (.inr hline)) (.inr (.inl rfl))
      (.inr Checker.received_cleared)) p
  | @trigger q tag j hj hs =>
    refine .of_set (q := q) (v := { s.port q with slot := none, checker := Checker.cleared }) ?_ (fun hunit =>
      .tied hunit (.inl rfl) (.inr (.inl rfl)) (.inr Checker.received_cleared)) p
    rw [triggerJob_staging hj hs]
  | @free j => exact unitNext_freeJob (s := s) (j := j) rfl p
  | @abortReport e j => exact unitNext_freeJob (s := s) (t := (s.freeJob j).modEngine e Engine.toIdle) rfl p
  | @deliver q tag j o d raised hj hs _ =>
    obtain ⟨hmem, howner, -⟩ := findJob_some hj
    have hunheld : j.isAborting = false := by simp only [Job.isAborting, hs]
    exact .of_set (q := q) (v := { s.port q with window := some tag }) rfl (fun hunit => .tied hunit (.inr (.inl rfl))
      (.inr (.inr ⟨j, hmem, howner, hunheld⟩)) (.inl rfl)) p
  | @clearUnit q f hjobs hunit =>
    obtain ⟨hslot, hwindow, hnotices, hraw, hchecker⟩ := hunit (s.port q)
    exact .of_set (modPort_ports ..) (fun hq => .cleared ⟨hq ▸ hslot, hq ▸ hwindow⟩ ⟨hq ▸ hnotices, hq ▸ hraw⟩
      (hq ▸ hchecker) hjobs) p
  | @deviceReset units hunits =>
    obtain ⟨bus, hunit⟩ := hunits p
    have hport : (s.deviceResetWith units).port p = _ := hunit
    refine .cleared ?_ ?_ ?_ fun j hj => absurd hj List.not_mem_nil
    all_goals rw [hport]
    · exact ⟨rfl, rfl⟩
    · exact ⟨rfl, rfl⟩
    · rfl

/-! ### Held ports (R130) -/

/-- On a port whose line is held the jobs stay ABORTING, and no job is opened. -/
theorem Move.isAborting (m : s.Move live t) (haborts : s.AbortFlags) (hline : (s.port p).resetHeld = true)
    (h : ∀ j ∈ s.jobs, j.owner = p → j.isAborting = true) : ∀ j ∈ t.jobs, j.owner = p → j.isAborting = true := by
  intro k hk howner
  obtain ⟨c, f, hjobs, hf⟩ | ⟨q, -, hfree, -, rfl⟩ := m.jobs_cases
  · rw [hjobs] at hk
    obtain ⟨j, hj, rfl⟩ := List.mem_map.1 hk
    have hj := (List.mem_filter.1 hj).1
    have hnext := hf j hj
    have habort := h j hj (hnext.owner_eq ▸ howner)
    exact hnext.isAborting haborts.ids (haborts.flags j hj) habort
  · obtain hk | hk := List.mem_append.1 hk
    · exact h k hk howner
    · rw [List.mem_singleton.1 hk] at howner
      have hq : q = p := howner
      rw [hq, hline] at hfree
      cases hfree

theorem Move.heldPortsQuiet (m : s.Move live t) (h : s.HeldPortsQuiet) : t.HeldPortsQuiet := by
  refine ⟨m.abortFlags h.aborts, fun p hline => ?_⟩
  cases m.unitNext p with
  | evolves hunit =>
    obtain ⟨hold, hnotices, hraw⟩ := hunit.line hline
    obtain ⟨hnone, hzero, hslot, hwindow, hjobs⟩ := h.quiet p hold
    exact ⟨hnotices.trans hnone, hraw.trans hzero, hunit.slot.trans hslot, hunit.window.trans hwindow,
      m.isAborting h.aborts hold hjobs⟩
  | cleared hlinks hwords _ hjobs => exact ⟨hwords.1, hwords.2, hlinks.1, hlinks.2, hjobs⟩
  | tied hunit hslot hwindow _ =>
    rw [hunit] at hline ⊢
    obtain ⟨hnone, hzero, hslot', hwindow', hjobs⟩ := h.quiet p hline
    refine ⟨hnone, hzero, ?_, ?_, m.isAborting h.aborts hline hjobs⟩
    · obtain hslot | hslot | hfree := hslot
      · exact hslot
      · exact hslot.trans hslot'
      · exact absurd (hfree.symm.trans hline) nofun
    · obtain hwindow | hwindow | ⟨j, hj, howner, hnot⟩ := hwindow
      · exact hwindow
      · exact hwindow.trans hwindow'
      · exact absurd (hnot.symm.trans (hjobs j hj howner)) nofun

/-! ### The bounds of a port unit (R55, R56, R175) and of the memory -/

theorem Move.noticesBounded (m : s.Move live t) (h : s.NoticesBounded) : t.NoticesBounded := by
  intro p
  cases m.unitNext p with
  | evolves hunit => exact hunit.notices (h p)
  | cleared _ hwords _ _ =>
    rw [hwords.1]
    exact Nat.zero_le _
  | tied hunit _ _ _ =>
    rw [hunit]
    exact h p

theorem Move.countsBounded (m : s.Move live t) (h : s.CountsBounded) : t.CountsBounded := by
  intro p st
  cases m.unitNext p with
  | evolves hunit => exact hunit.counts (h p) st
  | cleared _ _ hchecker _ =>
    rw [hchecker, Checker.received_cleared.1 st]
    exact Nat.zero_le _
  | tied hunit _ _ hchecker =>
    rw [hunit]
    obtain rfl | ⟨hzero, -⟩ := hchecker
    · exact h p st
    · exact (hzero st).le.trans (Nat.zero_le _)

theorem Move.clampBounded (m : s.Move live t) (h : s.ClampBounded) : t.ClampBounded := by
  intro p
  cases m.unitNext p with
  | evolves hunit => exact hunit.clamp (h p)
  | cleared _ _ hchecker _ =>
    rw [hchecker]
    exact Nat.zero_le _
  | tied hunit _ _ hchecker =>
    rw [hunit]
    obtain rfl | ⟨-, hzero⟩ := hchecker
    · exact h p
    · exact hzero.le.trans (Nat.zero_le _)

theorem Move.mem_wf (m : s.Move live t) (h : s.mem.wf) : t.mem.wf := by
  cases m with
  | pending | unit | engine | create | abort | complete | deliver | tick | clearUnit => exact h
  | memory c hm => exact hm h
  | trigger hj hs =>
    rw [triggerJob_staging hj hs]
    exact h
  | grant _ _ hj hs =>
    rw [grantTo_queued hj hs]
    exact h
  | free =>
    rw [freeJob_mem]
    exact h
  | abortReport =>
    show (s.freeJob _).mem.wf
    rw [freeJob_mem]
    exact h
  | deviceReset => exact reset_mem_wf

end State

/-- Settles O58: an engine stays, works on, begins PRIME with the legal params of a live job, or becomes idle; a record keeps
its params and gets on an engine only when that engine begins PRIME. -/
theorem stepKeepsEnginesSound : Obligations.StepKeepsEnginesSound := by
  refine ⟨fun s t h hstep => ?_, fun s t h hstep => ?_⟩
  · exact step_keeps (live := False) nofun (fun m h => m.enginesSound h) (fun _ _ _ h => ⟨h.params, h.engines⟩) h hstep
  · exact step_keeps (live := False) nofun (fun m h => m.paramsCopied h) (fun _ _ _ h => ⟨h.ids, h.copied⟩) h hstep

/-- Settles O59: on a held port a move can only keep the unit's words, clear them, or untie a job. -/
theorem stepKeepsHeldPortsQuiet : Obligations.StepKeepsHeldPortsQuiet := by
  refine ⟨fun s t h hstep => ?_, fun s t h hstep => ?_⟩
  · exact step_keeps (live := False) nofun (fun m h => m.abortFlags h) (fun _ _ _ h => ⟨h.ids, h.flags⟩) h hstep
  · exact step_keeps (live := False) nofun (fun m h => m.heldPortsQuiet h)
      (fun _ _ _ h => ⟨⟨h.aborts.ids, h.aborts.flags⟩, h.quiet⟩) h hstep

/-- Settles O60: each bound holds of a unit that goes on, of a cleared one, and of one whose ties change. -/
theorem stepKeepsUnitBounds : Obligations.StepKeepsUnitBounds := by
  refine ⟨fun s t h hstep => ?_, fun s t h hstep => ?_, fun s t h hstep => ?_, fun s t h hstep => ?_⟩
  · exact step_keeps (live := False) nofun (fun m h => m.noticesBounded h) (fun _ _ _ h => h) h hstep
  · exact step_keeps (live := False) nofun (fun m h => m.countsBounded h) (fun _ _ _ h => h) h hstep
  · exact step_keeps (live := False) nofun (fun m h => m.clampBounded h) (fun _ _ _ h => h) h hstep
  · exact step_keeps (Law := fun s => s.mem.wf) (live := False) nofun (fun m h => m.mem_wf h) (fun _ _ _ h => h) h hstep

end Sys2Proof.Machine
end

section
/-! PROOF. The odd parity of the port bus as a count of ones (R158, R159), and what a write of bad data parity does to each
target (Table 8-3). -/

namespace Sys2Proof.Machine

/-! ### Counts of ones -/

theorem foldl_xor_eq (f : Nat → Bool) (l : List Nat) (b : Bool) :
    l.foldl (fun acc i => acc ^^ f i) b = (b ^^ decide (l.countP f % 2 = 1)) := by
  induction l generalizing b with
  | nil => simp
  | cons i l ih =>
    rw [List.foldl_cons, ih, List.countP_cons]
    cases f i with
    | false => simp
    | true =>
      have hflip : decide ((l.countP f + 1) % 2 = 1) = !decide (l.countP f % 2 = 1) := by
        rw [← decide_not]
        exact decide_eq_decide.2 (by omega)
      simp only [if_true, hflip]
      cases b <;> simp

theorem oddOnes_eq {w : Nat} (x : BitVec w) :
    oddOnes x = decide ((List.range w).countP (fun i => x.getLsbD i) % 2 = 1) := by
  rw [oddOnes, foldl_xor_eq, Bool.false_xor]

theorem addrParityGood_iff (a : WordAddr) (isWrite par : Bool) : addrParityGood a isWrite par = true ↔
    ((List.range 14).countP (fun i => a.getLsbD i) + isWrite.toNat + par.toNat) % 2 = 1 := by
  rw [addrParityGood, oddOnes_eq]
  cases isWrite <;> cases par <;> simp
  all_goals omega

theorem oddOnes_byteOf (w : Word) (b : Nat) :
    oddOnes (byteOf w b) = decide ((List.range 8).countP (fun i => w.getLsbD (8 * b + i)) % 2 = 1) := by
  have hbits : (List.range 8).countP (fun i => (byteOf w b).getLsbD i) =
      (List.range 8).countP (fun i => w.getLsbD (8 * b + i)) := by
    refine List.countP_congr fun i hi => ?_
    have hi : i < 8 := List.mem_range.1 hi
    simp [byteOf, hi]
  rw [oddOnes_eq, hbits]

theorem byteParityGood_iff (w : Word) (par : BitVec 4) (b : Nat) :
    byteParityGood w par b = true ↔ byteOnes w par b % 2 = 1 := by
  rw [byteParityGood, oddOnes_byteOf, byteOnes]
  cases par.getLsbD b <;> simp
  omega

theorem dataParityGood_iff (w : Word) (par : BitVec 4) :
    dataParityGood w par = true ↔ ∀ b < 4, byteOnes w par b % 2 = 1 := by
  simp only [dataParityGood, Bool.and_eq_true, byteParityGood_iff]
  constructor
  · rintro ⟨⟨⟨h0, h1⟩, h2⟩, h3⟩ b hb
    interval_cases b <;> assumption
  · exact fun h => ⟨⟨⟨h 0 (by decide), h 1 (by decide)⟩, h 2 (by decide)⟩, h 3 (by decide)⟩

/-- Settles O4: both parities are the parity of a count of ones. -/
theorem parityIsOdd : Obligations.ParityIsOdd := ⟨addrParityGood_iff, dataParityGood_iff⟩

/-- The parity that the part generates is good (R159). -/
theorem dataParityGood_generatedParity (w : Word) : dataParityGood w (generatedParity w) = true := by
  have hbit (b : Nat) (hb : b < 4) : (generatedParity w).getLsbD b = !oddOnes (byteOf w b) := by
    interval_cases b <;> simp only [generatedParity, BitVec.getLsbD_append, BitVec.getLsbD_ofBool] <;> simp
  simp only [dataParityGood, byteParityGood, hbit 0 (by decide), hbit 1 (by decide), hbit 2 (by decide),
    hbit 3 (by decide), Bool.xor_not_self, Bool.and_true]

/-! ### Writes of bad data parity (Table 8-3) -/

namespace State

/-- Data of bad parity for a stream is discarded and marked, by what the staging slot names (Table 3-6). -/
theorem streamWord_bad (s : State) (p : Port) (st : Stream) (w : Word) : s.streamWord p st w false =
    s.modPort p fun u => if (s.port p).slot.isSome then
      { u with checker := { u.checker with parityFault := true } }.setBit .dataParity
    else (u.setBit .strayWrite).setBit .dataParity := by
  cases hslot : (s.port p).slot with
  | none => exact streamWord_noJob_badParity hslot
  | some tag => exact streamWord_badParity hslot

theorem performWrite_stray_bad (s : State) (p : Port) (w : Word) :
    s.performWrite p .stray w false = s.modPort p fun u => (u.setBit .strayWrite).setBit .dataParity := by
  show (s.setStatus p .strayWrite).setStatus p .dataParity = _
  rw [setStatus_eq, setStatus_eq, modPort_modPort]

end State

/-- Settles O5: the words of the port unit, CMD (O6), the streams and the stray addresses, each by its lemma. -/
theorem badDataParityByTable83 : Obligations.BadDataParityByTable83 := by
  refine ⟨fun c s p a w bus hc hperforms haddr hbyte => ?_, fun c s p a par hc hread => ?_⟩
  · have hbad : dataParityGood w bus.data = false := by
      obtain ⟨b, hb, heven⟩ := hbyte
      refine Bool.eq_false_iff.2 fun hgood => ?_
      have := (dataParityGood_iff w bus.data).1 hgood b hb
      omega
    cases htarget : writeTarget a with
    | settings | statusSet | statusClear | enableSet | enableClear | param =>
      exact hperforms.exec_ownWrite_bad haddr hbad hc htarget rfl nofun
    | cmd =>
      obtain rfl := eq_cmdAddr_of_writeTarget htarget
      rw [(cmdWriteTestedInOrder c s p w bus hc hperforms haddr).1 (.inl hbad), hbad]
      rfl
    | stream st =>
      rw [exec_of_asWrite hc, State.writeAccess_performed hperforms.portClosed_eq_false w haddr, htarget, hbad,
        State.performWrite_stream, State.streamWord_bad, State.answer_eq, State.modPort_modPort]
      dsimp only
      split <;> rfl
    | stray =>
      rw [exec_of_asWrite hc, State.writeAccess_performed hperforms.portClosed_eq_false w haddr, htarget, hbad,
        State.performWrite_stray_bad, State.answer_eq, State.modPort_modPort]
      rfl
  · obtain ⟨data, hbus⟩ := s.bus_performRead p (readTarget a)
    refine ⟨_, data, generatedParity data, exec_of_asRead hc s, ?_,
      (dataParityGood_iff ..).1 (dataParityGood_generatedParity data)⟩
    rw [State.readAccess_performed hread.performs.portClosed_eq_false hread.addr, hbus]

end Sys2Proof.Machine
end

section
/-! PROOF. The plain words of a port: the addresses that reach them (Table 10-1), IDENT (Table 10-12), the status bits as
bits, and the result window (R147). -/

namespace Sys2Proof.Machine

/-! ### STATUS, ENABLED_STATUS and the line -/

namespace PortUnit

theorem getLsbD_statusBits_position (u : PortUnit) (b : StatusBit) : u.statusBits.getLsbD b.position = u.has b := by
  have habove (i : Nat) : u.statusBits.getLsbD (i + 1) = u.raw.getLsbD i := by
    rw [statusBits, BitVec.getLsbD_append, if_neg (by omega), Nat.add_sub_cancel]
  cases b <;> exact habove _

/-- The line is asserted while some enabled position of STATUS is 1 (R183). -/
theorem irq_iff (u : PortUnit) : u.irq = true ↔ ∃ i < 6, u.statusBits.getLsbD i = true ∧ u.enables.getLsbD i = true := by
  have hzero : u.enabledStatus = 0#6 ↔ ∀ i < 6, u.enabledStatus.getLsbD i = false := by
    rw [BitVec.eq_of_getLsbD_eq_iff]
    simp
  rw [irq, bne_iff_ne, Ne, hzero]
  simp [enabledStatus]

end PortUnit

/-- Settles O11: the live bit, the sticky bits and their enabled positions, bit by bit. -/
theorem lineFollowsEnabledStatus : Obligations.LineFollowsEnabledStatus := by
  intro s p
  refine ⟨?_, (s.port p).getLsbD_statusBits_position, fun i _ => BitVec.getLsbD_and, (s.port p).irq_iff⟩
  rw [PortUnit.getLsbD_statusBits_zero]
  simp [PortUnit.noticePending]

/-! ### Table 10-1 -/

theorem writeTarget_iff (a : WordAddr) (t : WriteTarget) : writeTarget a = t ↔ match t with
    | .settings => byteOffset a = 0x04
    | .statusSet => byteOffset a = 0x0C
    | .statusClear => byteOffset a = 0x10
    | .enableSet => byteOffset a = 0x18
    | .enableClear => byteOffset a = 0x1C
    | .param i => byteOffset a = 0x40 + 4 * i.val
    | .cmd => byteOffset a = 0x60
    | .stream st => 0x1000 * (streamNumber st + 1) ≤ byteOffset a ∧ byteOffset a < 0x1000 * (streamNumber st + 2)
    | .stray => writeTarget a = .stray := by
  cases t with
  | stray => rfl
  | settings => simp only [writeTarget, ite_eq_iff, reduceCtorEq, and_false, and_true, or_false]
  | statusSet | statusClear | enableSet | enableClear | cmd =>
    simp only [writeTarget, ite_eq_iff, reduceCtorEq, and_false, and_true, false_or, or_false]
    omega
  | param i =>
    simp only [writeTarget, ite_eq_iff, reduceCtorEq, and_false, false_or, or_false, WriteTarget.param.injEq, Fin.ext_iff,
      Fin.coe_ofNat_eq_mod]
    omega
  | stream st =>
    cases st <;> simp only [writeTarget, ite_eq_iff, reduceCtorEq, and_false, and_true, false_or, or_false,
      WriteTarget.stream.injEq, streamNumber]
    all_goals omega

theorem readTarget_iff (a : WordAddr) (t : ReadTarget) : readTarget a = t ↔ match t with
    | .ident => byteOffset a = 0x00
    | .settings => byteOffset a = 0x04
    | .status => byteOffset a = 0x08
    | .enable => byteOffset a = 0x14
    | .enabledStatus => byteOffset a = 0x20
    | .notice => byteOffset a = 0x24
    | .param i => byteOffset a = 0x40 + 4 * i.val
    | .resp i => byteOffset a = 0x70 + 4 * i.val
    | .window x => 0x8000 ≤ byteOffset a ∧ byteOffset a ≤ 0xBFFF ∧ x = byteOffset a - 0x8000
    | .stray => readTarget a = .stray := by
  cases t with
  | stray => rfl
  | ident => simp only [readTarget, ite_eq_iff, reduceCtorEq, and_false, and_true, or_false]
  | settings | status | enable | enabledStatus | notice =>
    simp only [readTarget, ite_eq_iff, reduceCtorEq, and_false, and_true, false_or, or_false]
    omega
  | param i =>
    simp only [readTarget, ite_eq_iff, reduceCtorEq, and_false, false_or, or_false, ReadTarget.param.injEq, Fin.ext_iff,
      Fin.coe_ofNat_eq_mod]
    omega
  | resp i =>
    simp only [readTarget, ite_eq_iff, reduceCtorEq, and_false, false_or, or_false, ReadTarget.resp.injEq, Fin.ext_iff,
      Fin.coe_ofNat_eq_mod]
    omega
  | window x =>
    simp only [readTarget, ite_eq_iff, reduceCtorEq, and_false, false_or, or_false, ReadTarget.window.injEq]
    omega

/-- Settles O17: Table 10-1 is a chain of tests of the offset, no two of which hold of one. -/
theorem portWindowMap : Obligations.PortWindowMap := fun a =>
  ⟨⟨writeTarget_iff a .settings, writeTarget_iff a .statusSet, writeTarget_iff a .statusClear, writeTarget_iff a .enableSet,
      writeTarget_iff a .enableClear, fun i => writeTarget_iff a (.param i), writeTarget_iff a .cmd,
      fun st => writeTarget_iff a (.stream st)⟩,
    ⟨readTarget_iff a .ident, readTarget_iff a .settings, readTarget_iff a .status, readTarget_iff a .enable,
      readTarget_iff a .enabledStatus, readTarget_iff a .notice, fun i => readTarget_iff a (.param i),
      fun i => readTarget_iff a (.resp i), fun x => readTarget_iff a (.window x)⟩⟩

/-! ### Plain reads (Table 8-2) -/

/-- The targets whose reads return a word of the port unit and change nothing. -/
def ReadTarget.isPlain : ReadTarget → Bool
  | .ident | .settings | .status | .enable | .enabledStatus | .param _ | .resp _ => true
  | .notice | .window _ | .stray => false

namespace State

theorem performRead_plain (s : State) (p : Port) {t : ReadTarget} (h : t.isPlain = true) :
    s.performRead p t = s.withPort p { s.port p with bus := goodRead (s.readWord p t) } := by
  cases t with
  | notice | window | stray => cases h
  | ident | settings | status | enable | enabledStatus | param | resp => rfl

theorem PerformedRead.exec_strayRead {s : State} {p : Port} {a : WordAddr} {par : Bool} (h : s.PerformedRead p a par) :
    exec (.strayRead p a par) s = .next (s.performRead p (readTarget a)) := by
  rw [exec_of_asRead rfl, readAccess_performed h.performs.portClosed_eq_false h.addr]

theorem PerformedRead.exec_strayRead_plain {s : State} {p : Port} {a : WordAddr} {par : Bool}
    (h : s.PerformedRead p a par) {t : ReadTarget} (ht : readTarget a = t) (hplain : t.isPlain = true) :
    exec (.strayRead p a par) s = .next (s.withPort p { s.port p with bus := goodRead (s.readWord p t) }) := by
  rw [h.exec_strayRead, ht, performRead_plain s p hplain]

end State

/-- Settles O15: each of the offsets reaches a plain target, whose word is `State.readWord`. -/
theorem plainReadsReturnWords : Obligations.PlainReadsReturnWords := by
  intro s p a par hread returns
  have hplain {t : ReadTarget} (ht : readTarget a = t) (h : t.isPlain = true) : returns (s.readWord p t) :=
    hread.exec_strayRead_plain ht h
  refine ⟨fun ho => ?_, fun ho => ?_, fun ho => ?_, fun ho => ?_, fun ho => ?_, fun i ho => ?_, fun ho => ?_, fun ho => ?_,
    fun ho => ?_, fun ho => ?_⟩
  · exact hplain ((readTarget_iff a .ident).2 ho) rfl
  · exact hplain ((readTarget_iff a .settings).2 ho) rfl
  · exact hplain ((readTarget_iff a .status).2 ho) rfl
  · exact hplain ((readTarget_iff a .enable).2 ho) rfl
  · exact hplain ((readTarget_iff a .enabledStatus).2 ho) rfl
  · exact hplain ((readTarget_iff a (.param i)).2 ho) rfl
  · exact hplain ((readTarget_iff a (.resp 0)).2 ho) rfl
  · exact hplain ((readTarget_iff a (.resp 1)).2 ho) rfl
  · exact hplain ((readTarget_iff a (.resp 2)).2 ho) rfl
  · exact hplain ((readTarget_iff a (.resp 3)).2 ho) rfl

/-! ### IDENT (Table 10-12) -/

theorem toNat_identWord (pf : Profile) (p : Port) : (identWord pf p).toNat =
    0x0440 + 2 ^ 16 * 1 + 2 ^ 20 * p.letter.toNat + 2 ^ 22 * pf.number.toNat + 2 ^ 24 * (pf.entryCeiling p / 4 % 2 ^ 4) +
      2 ^ 28 * (pf.pageCeiling p / 16 % 2 ^ 4) := by
  simp only [identWord, toNat_append_eq_add, BitVec.toNat_ofNat]
  omega

/-- An enabled port's ceilings fit their fields (Tables 1-7 and 2-2). -/
theorem ceilings_of_enables {pf : Profile} {p : Port} (h : pf.enables p = true) :
    (pf.entryCeiling p = 8 ∨ pf.entryCeiling p = 16) ∧ (pf.pageCeiling p = 64 ∨ pf.pageCeiling p = 128) := by
  cases pf with
  | balanced => exact ⟨.inl rfl, .inl rfl⟩
  | openShare => exact ⟨.inr rfl, .inr rfl⟩
  | leadPort =>
    cases p with
    | a => exact ⟨.inr rfl, .inr rfl⟩
    | b | c | d => exact ⟨.inl rfl, .inl rfl⟩
  | twoPort =>
    cases p with
    | a | b => exact ⟨.inr rfl, .inr rfl⟩
    | c | d => cases h

/-- Settles O16: the fields of IDENT, and an enabled port's ceilings are multiples that fit theirs. -/
theorem identFields : Obligations.IdentFields := by
  intro pf p h
  obtain ⟨hentry, hpage⟩ := ceilings_of_enables h
  rw [toNat_identWord]
  omega

/-! ### The result window (R147) -/

/-- A word of an area carries the area's bytes in order. -/
theorem byteOf_readAreaWord (s : State) (pages : List Page) (o : Nat) {b : Nat} (hb : b < 4) :
    byteOf (s.readAreaWord pages o) b = s.readArea pages (o + b) := by
  refine BitVec.eq_of_toNat_eq ?_
  have h0 := (s.readArea pages o).isLt
  have h1 := (s.readArea pages (o + 1)).isLt
  have h2 := (s.readArea pages (o + 2)).isLt
  have h3 := (s.readArea pages (o + 3)).isLt
  rw [byteOf, BitVec.extractLsb'_toNat, State.readAreaWord]
  simp only [toNat_append_eq_add, Nat.shiftRight_eq_div_pow]
  match b, hb with
  | 0, _ | 1, _ | 2, _ | 3, _ => simp only [Nat.add_zero, Nat.mul_zero, Nat.reduceMul, Nat.reducePow]; omega

namespace State

variable {s : State} {p : Port} {offset : BitVec 12} {par : Bool}

theorem PerformedRead.exec_resultWindowRead (h : s.PerformedRead p (windowAddr offset) par) :
    exec (.resultWindowRead p offset par) s = .next (s.performRead p (.window (4 * offset.toNat))) := by
  rw [exec_of_asRead rfl, readAccess_performed h.performs.portClosed_eq_false h.addr, readTarget_windowAddr]

/-- Where the window serves no word a read is stray (R147, R160). -/
theorem PerformedRead.exec_resultWindowRead_none (h : s.PerformedRead p (windowAddr offset) par)
    (hnone : s.windowWord p (4 * offset.toNat) = none) : exec (.resultWindowRead p offset par) s =
      .next (s.withPort p { (s.port p).setBit .strayRead with bus := .read false 0#32 0xF#4 }) := by
  rw [h.exec_resultWindowRead, performRead_window_none hnone, ← answer_setStatus]
  exact congrArg Host.Outcome.next (s.performRead_stray p)

end State

/-- Settles O13: the window serves a word exactly below the output length of the job it maps. -/
theorem windowReadServesOutput : Obligations.WindowReadServesOutput := by
  refine ⟨fun s p offset par tag j hread hwindow hj => ⟨fun hlt => ?_, fun hge => ?_⟩,
    fun s p offset par hread hwindow => ?_, fun s pages o pg hpg => ?_⟩
  · refine ⟨_, fun b hb => byteOf_readAreaWord s j.output (4 * offset.toNat) hb, ?_⟩
    have hword := State.windowWord_eq_some.2 ⟨tag, j, hwindow, hj, hlt, rfl⟩
    rw [hread.exec_resultWindowRead, State.performRead_window_some hword]
    rfl
  · refine hread.exec_resultWindowRead_none (Option.eq_none_iff_forall_ne_some.2 fun w hw => ?_)
    obtain ⟨t, k, ht, hk, hlt, -⟩ := State.windowWord_eq_some.1 hw
    obtain rfl := Option.some.inj (hwindow.symm.trans ht)
    obtain rfl := Option.some.inj (hj.symm.trans hk)
    exact absurd hlt (Nat.not_lt.2 hge)
  · refine hread.exec_resultWindowRead_none (Option.eq_none_iff_forall_ne_some.2 fun w hw => ?_)
    obtain ⟨t, k, ht, -⟩ := State.windowWord_eq_some.1 hw
    exact absurd (hwindow.symm.trans ht) nofun
  · simp only [State.readArea, hpg, State.readPage, pageAddr]

end Sys2Proof.Machine
end

section
/-! PROOF. The parameter words (R162) and SETTINGS (R168): their writes and reads, and which of the commands and the resets
change them. -/

namespace Sys2Proof.Machine

@[simp] theorem readTarget_paramAddr (i : Fin 6) : readTarget (paramAddr i) = .param i := by
  revert i
  decide

@[simp] theorem readTarget_settingsAddr : readTarget settingsAddr = .settings := by decide

namespace State

/-! ### The standing words through CMD -/

/-- An item that the standing words determine, the taint apart, changes with no CMD write but by PORT_RESET. -/
theorem item_writeAccess_cmd {α : Type} {item : PortUnit → α}
    (hstanding : ∀ {u v : PortUnit}, u.standing = v.standing → item u = item v)
    (htaint : ∀ u : PortUnit, item { u with taint := false } = item u) {code : BitVec 8}
    (hreset : code = codePortReset → ∀ u : PortUnit, item u.afterPortReset = item u) (s : State) (p : Port)
    (reserved : BitVec 24) (bus : WriteParity) :
    item ((s.writeAccess p cmdAddr (cmdWord reserved code) bus).port p) = item (s.port p) := by
  have hkeep {s t : State} (h : s.standing = t.standing) : item (s.port p) = item (t.port p) :=
    hstanding (congrFun h p)
  have hrefused (good : Bool) : item ((s.refuseParity p code good).port p) = item (s.port p) := by
    rw [refuseParity, hkeep (standing_respond ..), port_modPort_self, htaint]
    cases good with
    | true => rfl
    | false => exact hkeep (s.standing_setStatus p .dataParity)
  have htaken : item ((s.takeCommand p code).port p) = item (s.port p) := by
    by_cases hcode : code = codePortReset
    · have hcleared := hreset hcode
      rw [hcode, takeCommand_portReset, jobPortReset, hkeep (standing_respond ..), portReset, port_modPort_self, hcleared]
      exact hkeep (s.standing_resetJobs p)
    · exact hstanding (s.standing_takeCommand p (.inr hcode))
  by_cases hperformed : s.Performs p ∧ addrParityGood cmdAddr true bus.addr = true
  · obtain ⟨hperforms, haddr⟩ := hperformed
    rw [hperforms.writeAccess_cmd haddr, hkeep (standing_answer ..)]
    by_cases htest : dataParityGood (cmdWord reserved code) bus.data = false ∨ (s.port p).taint = true
    · rw [commandWrite_refused htest]
      exact hrefused _
    · obtain ⟨hgood, hclean⟩ := not_or.1 htest
      rw [Bool.eq_true_of_not_eq_false hgood, commandWrite_taken (Bool.eq_false_iff.2 hclean)]
      exact htaken
  · exact hkeep (s.standing_writeAccess_refused hperformed _)

theorem param_eq_of_standing {u v : PortUnit} (h : u.standing = v.standing) : u.param = v.param := congrArg (·.2.2.1) h

theorem holdLimit_eq_of_standing {u v : PortUnit} (h : u.standing = v.standing) : u.holdLimit = v.holdLimit :=
  congrArg (·.2.1) h

/-- No command but PORT_RESET changes the parameter words. -/
theorem param_writeAccess_cmd {code : BitVec 8} (h : code ≠ codePortReset) (s : State) (p : Port) (reserved : BitVec 24)
    (bus : WriteParity) :
    ((s.writeAccess p cmdAddr (cmdWord reserved code) bus).port p).param = (s.port p).param :=
  item_writeAccess_cmd (item := PortUnit.param) param_eq_of_standing (fun _ => rfl) (fun hcode => absurd hcode h) s p
    reserved bus

/-- No command changes the hold limit. -/
theorem holdLimit_writeAccess_cmd (s : State) (p : Port) (reserved : BitVec 24) (code : BitVec 8) (bus : WriteParity) :
    ((s.writeAccess p cmdAddr (cmdWord reserved code) bus).port p).holdLimit = (s.port p).holdLimit :=
  item_writeAccess_cmd (item := PortUnit.holdLimit) holdLimit_eq_of_standing (fun _ => rfl) (fun _ _ => rfl) s p reserved
    bus

theorem param_portReset (s : State) (p : Port) : ((s.portReset p).port p).param = Vector.replicate 6 0#32 := by
  rw [portReset, port_modPort_self]
  rfl

theorem holdLimit_portReset (s : State) (p : Port) : ((s.portReset p).port p).holdLimit = (s.port p).holdLimit := by
  rw [portReset, port_modPort_self]
  show ((s.resetJobs p).port p).holdLimit = _
  exact holdLimit_eq_of_standing (congrFun (s.standing_resetJobs p) p)

/-- A PORT_RESET that passes the port unit is taken at the job table (R165). -/
theorem PassesPort.exec_portReset {s : State} {p : Port} {reserved : BitVec 24} {bus : WriteParity}
    (h : s.PassesPort p reserved 7 bus) :
    exec (.portReset p reserved bus) s = .next ((s.jobPortReset p).answer p (.wrote true false)) :=
  congrArg Host.Outcome.next h.writeAccess_eq

end State

/-- A device reset, a port reset from its line, and a PORT_RESET that is taken clear the parameter words (R162). -/
theorem param_exec_of_reset {c : Instr} {s t : State} {p : Port} (hexec : exec c s = .next t)
    (hreset : (∃ held, c = .deviceReset held) ∨ (∃ held, c = .portResetLineAssertion p held) ∨
      (∃ reserved bus, c = .portReset p reserved bus ∧ s.PassesPort p reserved 7 bus)) :
    (t.port p).param = Vector.replicate 6 0#32 := by
  obtain ⟨held, rfl⟩ | ⟨held, rfl⟩ | ⟨reserved, bus, rfl, hpass⟩ := hreset
  · cases hexec
    cases p <;> rfl
  · cases hexec
    rw [State.assertResetLine, State.port_modPort_self]
    exact s.param_portReset p
  · cases hpass.exec_portReset.symm.trans hexec
    rw [State.param_eq_of_standing (congrFun (State.standing_answer ..) p), State.jobPortReset,
      State.param_eq_of_standing (congrFun (State.standing_respond ..) p)]
    exact s.param_portReset p

/-- Settles O7: a parameter word is a word of the port unit itself, and no event on it but its own write and the resets
changes it. -/
theorem paramWordsKeepLastGoodWrite : Obligations.ParamWordsKeepLastGoodWrite := by
  refine ⟨fun s p i w bus hgood => ?_, fun s p i w bus hperforms haddr hbad => ?_, fun s p i par hread => ?_,
    fun c s t p a w bus hc hrefused hexec => ?_, fun s t p reserved bus c hc hexec => ?_,
    fun s t p c hreset hexec => param_exec_of_reset hexec hreset⟩
  · exact hgood.exec_ownWrite rfl (writeTarget_paramAddr i) rfl nofun
  · exact hperforms.exec_ownWrite_bad haddr hbad rfl (writeTarget_paramAddr i) rfl nofun
  · exact hread.exec_strayRead_plain (readTarget_paramAddr i) rfl
  · rw [eq_writeAccess_of_exec hc hexec]
    exact State.param_eq_of_standing (congrFun (s.standing_writeAccess_refused hrefused w) p)
  · simp only [List.mem_cons, List.not_mem_nil, or_false] at hc
    obtain rfl | rfl | rfl | rfl | rfl | rfl := hc
    all_goals
      rw [eq_writeAccess_of_exec rfl hexec]
      exact State.param_writeAccess_cmd (by decide) s p reserved bus

/-! ### SETTINGS -/

theorem extractLsb'_holdLimit (w : Word) : w.extractLsb' 0 12 = BitVec.ofNat 12 (w.toNat % 4096) := by
  refine BitVec.eq_of_toNat_eq ?_
  rw [BitVec.extractLsb'_toNat, BitVec.toNat_ofNat, Nat.shiftRight_zero]
  omega

/-- Settles O9: SETTINGS is a word of the port unit itself, which no port reset changes. -/
theorem settingsHoldsHoldLimit : Obligations.SettingsHoldsHoldLimit := by
  refine ⟨fun s p w bus hgood => ?_, fun s p w bus hperforms haddr hbad => ?_, fun s p par hread => ?_,
    fun s t held p hexec => ?_, fun s t p c hreset hexec => ?_⟩
  · rw [← extractLsb'_holdLimit]
    exact hgood.exec_ownWrite rfl writeTarget_settingsAddr rfl nofun
  · exact hperforms.exec_ownWrite_bad haddr hbad rfl writeTarget_settingsAddr rfl nofun
  · refine ⟨_, (s.port p).holdLimit.setWidth 32, hread.exec_strayRead_plain readTarget_settingsAddr rfl, ?_, rfl⟩
    exact BitVec.toNat_setWidth_of_le (by decide)
  · cases hexec
    cases p <;> rfl
  · obtain ⟨held, rfl⟩ | ⟨reserved, bus, rfl⟩ := hreset
    · cases hexec
      rw [State.assertResetLine, State.port_modPort_self]
      exact s.holdLimit_portReset p
    · rw [eq_writeAccess_of_exec rfl hexec]
      exact s.holdLimit_writeAccess_cmd p reserved 7 bus

/-- Settles O1: `step` takes the front of the queue, and idles without one. -/
theorem stepRunsFrontCommand : Obligations.StepRunsFrontCommand := by
  refine ⟨fun _ _ _ => rfl, fun s hnone => ?_⟩
  unfold step
  rw [hnone]

end Sys2Proof.Machine
end

section
/-! PROOF. The sizes of a job (Conventions, R27), the pages that an OPEN takes (R26, R31), the commands on an unknown tag, and
the counts that a freed job leaves. -/

namespace Sys2Proof.Machine

/-! ### Page counts -/

/-- Settles O21: every count is a quotient rounded up. -/
theorem pageCountsOfConventions : Obligations.PageCountsOfConventions := by
  intro k generated soft least H S
  have hH : H = 4 * ((k + 31) / 32) := rfl
  have hsoft : soft = true → S = 4 * ((k + 3) / 4) := fun h => by simp only [S, h, softBytes, if_true]
  have hnosoft : soft = false → S = 0 := fun h => by simp only [S, h, softBytes, Bool.false_eq_true, if_false]
  have hS : S ≤ 4 * ((k + 3) / 4) := by
    cases hs : soft with
    | true => exact (hsoft hs).le
    | false => exact (hnosoft hs).trans_le (Nat.zero_le _)
  have hclient : generated = false → permWords k generated = (k + 1) / 2 := fun h => by
    simp only [h, permWords, Bool.false_eq_true, if_false]
  have hgenerated : generated = true → permWords k generated = 0 := fun h => by simp only [h, permWords, if_true]
  have hP : permWords k generated ≤ (k + 1) / 2 := by
    obtain hg | hg := generated.eq_false_or_eq_true
    · exact (hgenerated hg).trans_le (Nat.zero_le _)
    · exact (hclient hg).le
  have hWs : softWords k = (k + 7) / 4 := rfl
  have hin : inputPages k generated = (3 * 4 * softWords k + 4 * permWords k generated + 1023) / 1024 := rfl
  have hout : outputPages k soft = (H + S + 1023) / 1024 := rfl
  simp only [least]
  refine ⟨by omega, fun h => ?_, hgenerated, ⟨(k + 31) / 32, hH, by omega⟩, fun h => ⟨(k + 3) / 4, hsoft h, by omega⟩,
    hnosoft, by omega, by omega, fun hlo hhi => ?_⟩
  · have := hclient h
    omega
  · have hin1 : 1 ≤ inputPages k generated := by omega
    have hout1 : 1 ≤ outputPages k soft := by omega
    have hin41 : inputPages k generated ≤ 41 := by omega
    have hout9 : outputPages k soft ≤ 9 := by omega
    exact ⟨hin1, hin41, hout1, hout9, Nat.add_le_add hin1 hout1, Nat.add_le_add hin41 hout9⟩

/-! ### The pages of an accepted OPEN -/

namespace State

variable {s : State} {p : Port} {r : OpenRecord}

theorem readPage_createJob (s : State) (p : Port) (r : OpenRecord) (pg : Page) (x : Nat) :
    (s.createJob p r).readPage pg x = if pg ∈ s.free.take r.totalPages then 0#8 else s.readPage pg x :=
  s.readPage_takePages r.totalPages pg x

/-- An area of pages that read 0 reads 0. -/
theorem readArea_eq_zero {pages : List Page} (h : ∀ pg ∈ pages, ∀ x, s.readPage pg x = 0#8) (o : Nat) :
    s.readArea pages o = 0#8 := by
  unfold readArea
  split
  · next pg hpg => exact h pg (List.mem_of_getElem? hpg) _
  · rfl

/-- The pages of a new job are the first of the free list. -/
theorem mem_pages_newJob {pg : Page} (h : pg ∈ (s.newJob p r).inputPages ∨ pg ∈ (s.newJob p r).output) :
    pg ∈ s.free.take r.totalPages := by
  rw [OpenRecord.totalPages, List.take_add]
  exact List.mem_append.2 h

/-- The created job is found, when no live job has its identity. -/
theorem findJob_createJob (hfresh : s.findJob p r.tag = none) :
    (s.createJob p r).findJob p r.tag = some (s.newJob p r) := by
  have hnew : (s.newJob p r).isFor p r.tag = true := (Job.isFor_iff ..).2 ⟨rfl, rfl⟩
  show (s.jobs ++ [s.newJob p r]).find? (fun k => k.isFor p r.tag) = _
  have hnone : s.jobs.find? (fun k => k.isFor p r.tag) = none := hfresh
  rw [List.find?_append, hnone, Option.none_or, List.find?_singleton, if_pos hnew]

end State

/-- Settles O20: the created job's lists are the pages taken, which are clean. -/
theorem openedPagesReadZero : Obligations.OpenedPagesReadZero := by
  intro s t p reserved bus hpass r total hnone hexec
  have haccept : s.openAnswer p r = .accept := by
    rw [State.openAnswer_eq, hnone]
    rfl
  rw [hpass.exec_openJob, State.jobOpen_accepted haccept, State.answer_respond] at hexec
  cases hexec
  have hread (pg : Page) (x : Nat) : ((s.createJob p r).told p .ok codeOpen r.tag (openCountsWord r.k r.generated)
      (openPagesWord r.inPages r.outPages) 0).readPage pg x =
        if pg ∈ s.free.take r.totalPages then 0#8 else s.readPage pg x := s.readPage_createJob p r pg x
  obtain ⟨hinput, houtput⟩ := State.length_newJob haccept
  refine ⟨fun pg x _ => hread pg x, s.newJob p r,
    State.findJob_createJob (State.findJob_none_of_openAnswer_accept haccept), fun o => ?_, fun o => ?_, hinput, houtput⟩
  · refine State.readArea_eq_zero (fun pg hpg x => ?_) o
    exact (hread pg x).trans (if_pos (State.mem_pages_newJob (.inl hpg)))
  · refine State.readArea_eq_zero (fun pg hpg x => ?_) o
    exact (hread pg x).trans (if_pos (State.mem_pages_newJob (.inr hpg)))

/-! ### Unknown tags -/

theorem State.jobTrigger_of_findJob_none {s : State} {p : Port} (h : s.findJob p (s.namedTag p) = none) :
    s.jobTrigger p = s.respond p .noJob codeTrigger (s.namedTag p) 0 0 0 := by
  simp only [jobTrigger, h]

/-- Settles O22: each of the five commands only answers when it finds no job. -/
theorem unknownTagAnsweredNoJob : Obligations.UnknownTagAnsweredNoJob := by
  intro s p reserved bus c hc hpass tag hunknown
  have hnone : s.findJob p (s.namedTag p) = none := State.findJob_none.2 hunknown
  simp only [List.mem_cons, List.not_mem_nil, or_false] at hc
  obtain rfl | rfl | rfl | rfl | rfl := hc
  · rw [hpass.exec_trigger, State.jobTrigger_of_findJob_none hnone, State.answer_respond]
    rfl
  · rw [hpass.exec_abort, State.jobAbort_of_findJob_none hnone, State.answer_respond]
    rfl
  · rw [hpass.exec_collect, State.jobCollect_of_findJob_none hnone, State.answer_respond]
    rfl
  · rw [hpass.exec_release, State.jobRelease_of_findJob_none hnone, State.answer_respond]
    rfl
  · exact State.exec_query_noJob hpass hnone

/-! ### The counts after a freeing -/

namespace State

variable {s : State} {p q : Port} {j : Job}

/-- A port's jobs are the freed one, when it is the owner, and those that are left. -/
theorem IdsDistinct.jobsOf_perm (h : s.IdsDistinct) (hj : j ∈ s.jobs) (q : Port) :
    (s.jobsOf q).Perm ((if j.owner = q then [j] else []) ++ (s.freeJob j).jobsOf q) := by
  have hperm := (h.jobs_perm hj).filter (·.owner == q)
  rw [List.filter_cons, ← freeJob_jobs] at hperm
  by_cases howner : j.owner = q
  · rw [if_pos (beq_iff_eq.2 howner)] at hperm
    rwa [if_pos howner]
  · rw [if_neg (mt beq_iff_eq.1 howner)] at hperm
    rwa [if_neg howner]

theorem IdsDistinct.counts_freeJob_self (h : s.IdsDistinct) (hj : j ∈ s.jobs) :
    (s.freeJob j).liveCount j.owner + 1 = s.liveCount j.owner ∧
      (s.freeJob j).pagesHeld j.owner + j.pages.length = s.pagesHeld j.owner := by
  have hperm := h.jobsOf_perm hj j.owner
  rw [if_pos rfl, List.singleton_append] at hperm
  refine ⟨hperm.length_eq.symm, ?_⟩
  rw [pagesHeld, pagesHeld, (hperm.map _).sum_eq, List.map_cons, List.sum_cons, Nat.add_comm]

theorem IdsDistinct.counts_freeJob_other (h : s.IdsDistinct) (hj : j ∈ s.jobs) (hq : q ≠ j.owner) :
    (s.freeJob j).liveCount q = s.liveCount q ∧ (s.freeJob j).pagesHeld q = s.pagesHeld q := by
  have hperm := h.jobsOf_perm hj q
  rw [if_neg hq.symm, List.nil_append] at hperm
  exact ⟨hperm.length_eq.symm, (hperm.map _).sum_eq.symm⟩

theorem IdsDistinct.length_jobs_freeJob (h : s.IdsDistinct) (hj : j ∈ s.jobs) :
    (s.freeJob j).jobs.length + 1 = s.jobs.length := by
  rw [freeJob_jobs, (h.jobs_perm hj).length_eq, List.length_cons]

end State

/-- Settles O26: an ABORT of a job on no engine and a RELEASE of a completed one free the job and answer. -/
theorem freeingLowersCounts : Obligations.FreeingLowersCounts := by
  intro s t p reserved bus j hids tag hj hfrees
  obtain ⟨hmem, rfl, htag⟩ := State.findJob_some hj
  obtain ⟨code, cmd, r1, rfl⟩ : ∃ code cmd r1, t = (s.freeJob j).told j.owner code cmd tag r1 0 0 := by
    obtain ⟨hexec, hpass, hfree⟩ | ⟨hexec, hpass, houtcome⟩ := hfrees
    · rw [hpass.exec_abort, State.jobAbort_of_not_onEngine hj hfree, State.answer_respond] at hexec
      cases hexec
      exact ⟨_, _, _, rfl⟩
    · rw [hpass.exec_release, State.jobRelease_of_outcome_isSome hj houtcome, State.answer_respond] at hexec
      cases hexec
      exact ⟨_, _, _, rfl⟩
  -- The response changes the owner's port unit alone.
  have hfind (q : Port) (u : Tag) : ((s.freeJob j).told j.owner code cmd tag r1 0 0).findJob q u =
      (s.dropJob j.owner j.tag).findJob q u := State.findJob_eq_of_jobs (State.freeJob_jobs ..) q u
  obtain ⟨hlive, hpages⟩ := hids.counts_freeJob_self hmem
  refine ⟨?_, hids.length_jobs_freeJob hmem, hlive, hpages, ?_, fun q hq => ?_⟩
  · rw [hfind, htag]
    exact State.findJob_dropJob_self ..
  · exact (congrArg List.length (State.freeJob_free s j)).trans List.length_append
  · obtain ⟨hlive, hpages⟩ := hids.counts_freeJob_other hmem hq
    refine ⟨hlive, hpages, ?_, State.freeJob_queue_other s j hq, fun u => ?_⟩
    · exact (PerPort.get_set_ne _ _ hq).trans (State.freeJob_port_other s j hq)
    · rw [hfind]
      exact State.findJob_dropJob_other _ fun h => hq h.1

end Sys2Proof.Machine
end

section
/-! PROOF. The layouts of the words (Tables 10-2 to 10-12): each word as the sum of its fields at their places, and the codes
of each field. -/

namespace Sys2Proof.Machine

theorem toNat_field (w : Word) (lo width : Nat) : field w lo width = w.toNat / 2 ^ lo % 2 ^ width := by
  rw [field, BitVec.extractLsb'_toNat, Nat.shiftRight_eq_div_pow]

theorem toNat_flag (w : Word) (i : Nat) : (flag w i).toNat = w.toNat / 2 ^ i % 2 := by
  rw [flag, BitVec.getLsbD, Nat.toNat_testBit]

theorem toNat_tagField (w : Word) : (tagField w).toNat = w.toNat % 4096 := by
  rw [tagField, BitVec.extractLsb'_toNat, Nat.shiftRight_zero]

theorem toNat_resp0 (code : RespCode) (cmd : BitVec 8) (tag : Tag) :
    (resp0 code cmd tag).toNat = code.value.toNat + 2 ^ 8 * cmd.toNat + 2 ^ 16 * tag.toNat := by
  simp only [resp0, toNat_append_eq_add, BitVec.toNat_ofNat]
  omega

theorem Notice.toNat_word (n : Notice) : n.word.toNat = n.kind.code.toNat +
    2 ^ 4 * (n.result.bind (·.checksumOk)).isSome.toNat + 2 ^ 5 * ((n.result.bind (·.checksumOk)).getD false).toNat +
    2 ^ 6 * ((n.result.map fun r : NoticeResult => r.stopReason.code).getD 0).toNat +
    2 ^ 8 * ((n.result.map (·.iterationsDone)).getD 0 % 2 ^ 4) + 2 ^ 16 * n.tag.toNat := by
  simp only [word, toNat_append_eq_add, toNat_bit, BitVec.toNat_ofNat]
  omega

/-- Settles O30: each word by the sum of its fields, and the codes by their tables. -/
theorem wordLayouts : Obligations.WordLayouts := by
  refine ⟨fun v => ?_, toNat_resp0, fun o hiter hquality => ?_, fun n hiter => ?_, Params.toNat_optionFlags,
    fun j c input hph hsys hpar1 hpar2 hperm hclamp => ?_, rfl, fun ph => ?_, rfl, rfl, rfl, rfl, rfl, rfl, rfl⟩
  · intro r
    have hlow (w : Word) (width : Nat) : field w 0 width = w.toNat % 2 ^ width := by
      rw [toNat_field, Nat.pow_zero, Nat.div_one]
    exact ⟨toNat_tagField _, hlow _ _, toNat_field .., toNat_field .., toNat_field .., toNat_field .., toNat_field ..,
      hlow _ _, toNat_flag .., toNat_flag .., toNat_flag .., toNat_flag .., hlow _ _, toNat_field ..⟩
  · rw [Outcome.toNat_fields, Nat.mod_eq_of_lt (by omega : o.iterationsDone < 2 ^ 4),
      Nat.mod_eq_of_lt (by omega : o.quality.getD 0 < 2 ^ 6)]
    omega
  · rw [Notice.toNat_word]
    cases hresult : n.result with
    | none => simp
    | some r =>
      have hr := hiter r hresult
      simp only [Option.bind_some, Option.map_some, Option.getD_some]
      omega
  · rw [queryWords_staging c hph, toNat_stagingWords_resp1, toNat_stagingWords_resp2, toNat_stagingWords_resp3]
    have hcode : (JobPhase.staging input).code.toNat = 1 := rfl
    omega
  · cases ph <;> rfl

end Sys2Proof.Machine
end

section
/-! PROOF. A port reset as one event (R22, R126 to R128): what freeing the port's jobs one after another leaves, and what the
reset makes of the port's own unit. -/

namespace Sys2Proof.Machine

namespace State

variable {s : State} {p q : Port}

/-! ### Freeing jobs one after another -/

theorem free_foldl_freeJob (s : State) (l : List Job) : (l.foldl freeJob s).free = s.free ++ l.flatMap Job.pages := by
  induction l generalizing s with
  | nil => simp
  | cons j l ih => rw [List.foldl_cons, ih, freeJob_free, List.flatMap_cons, List.append_assoc]

/-- Freeing jobs of one port leaves the other ports, and changes nothing else but the table, the free list, the queues and
the port units. -/
theorem foldl_freeJob_frame {l : List Job} (hl : ∀ j ∈ l, j.owner = p) (s : State) :
    let t := l.foldl freeJob s
    (∀ q, q ≠ p → t.queue q = s.queue q) ∧ (∀ q, q ≠ p → t.port q = s.port q) ∧
      t = { s with jobs := t.jobs, free := t.free, queues := t.queues, ports := t.ports } := by
  induction l generalizing s with
  | nil => exact ⟨fun _ _ => rfl, fun _ _ => rfl, rfl⟩
  | cons j l ih =>
    have howner : j.owner = p := hl j (by simp)
    obtain ⟨hqueue, hport, hrest⟩ := ih (fun k hk => hl k (by simp [hk])) (s.freeJob j)
    refine ⟨fun q hq => ?_, fun q hq => ?_, ?_⟩
    · exact (hqueue q hq).trans (s.freeJob_queue_other j (howner ▸ hq))
    · exact (hport q hq).trans (s.freeJob_port_other j (howner ▸ hq))
    · refine Eq.trans hrest ?_
      simp only [List.foldl_cons, freeJob_deviceReset, freeJob_profile, freeJob_clean, freeJob_mem, freeJob_pointer,
        freeJob_engines, freeJob_tick, freeJob_pending]

/-- A QUEUED job's tag leaves its queue with it. -/
theorem queue_foldl_freeJob {l : List Job} (hl : ∀ j ∈ l, j.owner = p) (s : State) :
    (l.foldl freeJob s).queue p = (s.queue p).filter fun tag => !l.any fun j => j.isQueued && j.tag == tag := by
  induction l generalizing s with
  | nil => simp
  | cons j l ih =>
    have howner : j.owner = p := hl j (by simp)
    have hfreed : (s.freeJob j).queue p = (s.queue p).filter fun tag => !(j.isQueued && j.tag == tag) := by
      rw [freeJob_eq_freed, queue, freed, howner, PerPort.get_set_self]
      cases j.isQueued with
      | true => simp [bne, Bool.beq_comm]
      | false => simp
    rw [List.foldl_cons, ih (fun k hk => hl k (by simp [hk])), hfreed, List.filter_filter]
    simp only [List.any_cons, Bool.not_or, Bool.and_comm]

/-- What a port reset clears of the port unit includes all that the freeing of the port's jobs changes. -/
theorem afterPortReset_foldl_freeJob {l : List Job} (hl : ∀ j ∈ l, j.owner = p) (s : State) :
    ((l.foldl freeJob s).port p).afterPortReset = (s.port p).afterPortReset := by
  induction l generalizing s with
  | nil => rfl
  | cons j l ih =>
    have howner : j.owner = p := hl j (by simp)
    rw [List.foldl_cons, ih (fun k hk => hl k (by simp [hk])), port, ports_freeJob, howner, PerPort.get_set_self]
    rfl

/-! ### The jobs that a port reset frees -/

theorem owner_of_mem_resetFrees {j : Job} (hj : j ∈ s.resetFrees p) : j.owner = p := ((s.mem_resetFrees p j).1 hj).2.1

theorem resetFrees_perm (s : State) (p : Port) :
    (s.resetFrees p).Perm (s.jobs.filter fun j => j.owner == p && !j.onEngine) := by
  refine (perm_sortByTag _).trans ?_
  rw [jobsOf, List.filter_filter]
  simp only [Bool.and_comm]
  exact .refl _

/-- Distinct identities of one port have distinct tags (R22). -/
theorem IdsDistinct.pairwise_resetFrees (h : s.IdsDistinct) (p : Port) :
    (s.resetFrees p).Pairwise fun a b => a.tag.toNat < b.tag.toNat := by
  refine ((pairwise_sortByTag _).and (h.nodup_resetFrees p)).imp_of_mem fun {a b} ha hb hab => ?_
  obtain ⟨hle, hne⟩ := hab
  refine lt_of_le_of_ne hle fun htag => hne ?_
  have hid : a.id = b.id := by
    rw [Job.id, Job.id, owner_of_mem_resetFrees ha, owner_of_mem_resetFrees hb, BitVec.eq_of_toNat_eq htag]
  exact h.eq_of_id ((s.mem_resetFrees p a).1 ha).1 ((s.mem_resetFrees p b).1 hb).1 hid

/-- With distinct identities exactly those jobs go. -/
theorem IdsDistinct.jobs_resetFrees (h : s.IdsDistinct) (p : Port) :
    ((s.resetFrees p).foldl State.freeJob s).jobs = s.jobs.filter fun j => !(j.owner == p && !j.onEngine) := by
  rw [jobs_foldl_freeJob]
  refine List.filter_congr fun k hk => congrArg (!·) (Bool.eq_iff_iff.2 ?_)
  have hmem : k ∈ s.resetFrees p ↔ k.owner = p ∧ k.onEngine = false :=
    (s.mem_resetFrees p k).trans (and_iff_right hk)
  rw [Bool.and_eq_true, beq_iff_eq, Bool.not_eq_true', ← hmem, List.any_eq_true]
  constructor
  · rintro ⟨j, hj, hfor⟩
    exact h.eq_of_id hk ((s.mem_resetFrees p j).1 hj).1 ((k.isFor_iff_id ..).1 hfor) ▸ hj
  · exact fun hk => ⟨k, hk, (k.isFor_iff ..).2 ⟨rfl, rfl⟩⟩

/-! ### A port reset -/

/-- The port reset, and what else the event does to the port's unit. -/
theorem IdsDistinct.jobsReset (h : s.IdsDistinct) (p : Port) (f : PortUnit → PortUnit) :
    s.JobsReset ((s.portReset p).modPort p f) p (s.resetFrees p) := by
  have howner : ∀ j ∈ s.resetFrees p, j.owner = p := fun j => owner_of_mem_resetFrees
  obtain ⟨hqueues, hothers, hrest⟩ := foldl_freeJob_frame howner s
  refine ⟨s.resetFrees_perm p, h.pairwise_resetFrees p, ?_, s.free_foldl_freeJob _, queue_foldl_freeJob howner s, hqueues,
    fun q hq => ?_, ?_⟩
  · exact congrArg (List.map fun j : Job => if j.owner = p then j.toAborting else j) (h.jobs_resetFrees p)
  · exact (port_modPort_ne _ _ hq).trans ((port_modPort_ne _ _ hq).trans (hothers q hq))
  · have hreset : (s.portReset p).modPort p f = { (s.resetFrees p).foldl State.freeJob s with
        jobs := ((s.portReset p).modPort p f).jobs, free := ((s.portReset p).modPort p f).free
        queues := ((s.portReset p).modPort p f).queues, ports := ((s.portReset p).modPort p f).ports } := rfl
    exact hreset.trans (by rw [hrest])

/-- The port's unit after its reset (R127). -/
theorem port_portReset (s : State) (p : Port) : (s.portReset p).port p = (s.port p).afterPortReset := by
  rw [portReset, port_modPort_self]
  exact afterPortReset_foldl_freeJob (fun j => owner_of_mem_resetFrees) s

theorem onEngine_toAborting (j : Job) : j.toAborting.isAborting = j.onEngine := by
  obtain ⟨_, _, _, _, _, phase⟩ := j
  cases phase <;> rfl

/-- After a port reset the port's ABORTING jobs are those that an engine held. -/
theorem IdsDistinct.abortingCount_portReset (h : s.IdsDistinct) (p : Port) :
    (s.portReset p).abortingCount p = (s.jobs.filter fun j => j.owner == p && j.onEngine).length := by
  have hjobs : (s.portReset p).jobs = (s.jobs.filter fun j => !(j.owner == p && !j.onEngine)).map fun j =>
      if j.owner = p then j.toAborting else j :=
    congrArg (List.map fun j : Job => if j.owner = p then j.toAborting else j) (h.jobs_resetFrees p)
  rw [abortingCount, jobsOf, hjobs, List.filter_filter, List.filter_map, List.length_map, List.filter_filter]
  refine congrArg List.length (List.filter_congr fun j _ => ?_)
  by_cases hp : j.owner = p
  · simp only [Function.comp_apply, if_pos hp, onEngine_toAborting]
    have howner : j.toAborting.owner = p := (congrArg JobId.owner j.keptBy_toAborting.1).trans hp
    cases honengine : j.onEngine <;> simp [hp, howner]
  · have hother : (j.owner == p) = false := beq_eq_false_iff_ne.2 hp
    simp [hp, hother]

end State

/-- Settles O31: the command is a port reset with its answer, which counts the jobs freed and those on an engine. -/
theorem portResetCommandResets : Obligations.PortResetCommandResets := by
  intro s p reserved bus hpass hids
  refine ⟨_, s.resetFrees p, hpass.exec_portReset, ?_, ?_⟩
  · rw [State.jobPortReset, State.answer_respond]
    exact hids.jobsReset p fun u => u.told .ok 7 0 _ _ 0
  · rw [State.jobPortReset, State.answer_respond, hids.abortingCount_portReset]
    show PerPort.get (PerPort.set _ _ _) p = _
    rw [PerPort.get_set_self, State.port_portReset]
    rfl

/-- Settles O32: the assertion is a port reset that holds the unit's line, and the release changes the line alone. -/
theorem resetLineHoldsPort : Obligations.ResetLineHoldsPort := by
  refine ⟨fun s p held hids => ⟨_, s.resetFrees p, rfl, hids.jobsReset p _, ?_⟩, fun s p => rfl⟩
  rw [State.assertResetLine, State.port_modPort_self, State.port_portReset]
  -- The unit apart from its answer is the reset unit; the answer is withdrawn exactly when the clause says.
  show { (s.port p).cleared with
    resp := Response.none, resetHeld := true, bus := if held then (s.port p).bus.withdrawn else (s.port p).bus } = _
  cases held with
  | false => rfl
  | true =>
    generalize (s.port p).bus = ans
    rcases ans with _ | ⟨_ | _, _⟩ | _ <;> rfl

end Sys2Proof.Machine
end

section
/-! PROOF. GRANT: the port that the search order finds first, and the one event that binds the job at the head of its queue
(R79, R80). -/

namespace Sys2Proof.Machine

namespace State

variable {s : State} {p : Port} {e : EngineId}

/-! ### What a grant chooses (R79) -/

/-- The first port of the order with a job waiting. -/
theorem firstHead_append {before : List Port} (hbefore : ∀ q ∈ before, s.queue q = []) {tag : Tag} {rest : List Tag}
    (hqueue : s.queue p = tag :: rest) (after : List Port) : s.firstHead (before ++ p :: after) = some (p, tag) := by
  induction before with
  | nil => simp only [List.nil_append, firstHead, hqueue]
  | cons q before ih =>
    simp only [List.cons_append, firstHead, hbefore q (by simp)]
    exact ih fun q hq => hbefore q (by simp [hq])

theorem firstHead_eq_none {ports : List Port} (h : ∀ q ∈ ports, s.queue q = []) : s.firstHead ports = none := by
  induction ports with
  | nil => rfl
  | cons q ports ih =>
    simp only [firstHead, h q (by simp)]
    exact ih fun q hq => h q (by simp [hq])

/-- A port at the end of an order is found only when no port before it has a job waiting. -/
theorem queue_eq_nil_of_firstHead_last {ports : List Port} (hp : p ∉ ports) {tag : Tag}
    (h : s.firstHead (ports ++ [p]) = some (p, tag)) : ∀ q ∈ ports, s.queue q = [] := by
  induction ports with
  | nil => simp
  | cons q ports ih =>
    obtain ⟨hq, hports⟩ := not_or.1 (mt List.mem_cons.2 hp)
    simp only [List.cons_append, firstHead] at h
    split at h
    · cases h
      exact absurd rfl hq
    · next hnone => exact List.forall_mem_cons.2 ⟨hnone, ih hports h⟩

/-- The ports that a grant considers before the one the pointer names. -/
def portsBeforePointer (pointer : Port) : List Port := (searchOrder pointer).dropLast

theorem searchOrder_eq (pointer : Port) : searchOrder pointer = portsBeforePointer pointer ++ [pointer] := by
  cases pointer <;> rfl

theorem mem_portsBeforePointer {pointer q : Port} : q ∈ portsBeforePointer pointer ↔ q ≠ pointer := by
  cases pointer <;> cases q <;> decide

theorem idleEngine_eq (hidle : (s.engine e).stage = .idle) (hfirst : e = .one → (s.engine .zero).stage ≠ .idle) :
    s.idleEngine = some e := by
  cases e with
  | zero => exact if_pos hidle
  | one => exact (if_neg (hfirst rfl)).trans (if_pos hidle)

theorem idleEngine_eq_none (h : ∀ e, (s.engine e).stage ≠ .idle) : s.idleEngine = none :=
  (if_neg (h .zero)).trans (if_neg (h .one))

theorem grant_of_choice (hreset : s.deviceReset = false) {tag : Tag} (hidle : s.idleEngine = some e)
    (hhead : s.firstHead (searchOrder s.pointer) = some (p, tag)) : s.grant = s.grantTo e p tag := by
  simp only [grant, hreset, grantChoice, hidle, hhead, Bool.false_eq_true, if_false]

theorem grant_of_no_choice (h : s.deviceReset = true ∨ s.grantChoice = none) : s.grant = s := by
  obtain hreset | hnone := h
  · exact if_pos hreset
  · simp only [grant, hnone, ite_self]

/-! ### What a grant does (R80) -/

theorem grantTo_of_not_isQueued {tag : Tag} (h : ∀ j, s.findJob p tag = some j → j.isQueued = false) :
    s.grantTo e p tag = s := by
  unfold grantTo
  split
  · next j hj => simp [h j hj]
  · rfl

/-- A grant changes the one live job of its identity, the head of its queue, the engine and the pointer. -/
theorem IdsDistinct.grantTo_eq (h : s.IdsDistinct) {tag : Tag} {rest : List Tag} {j : Job} {clamp : Nat}
    {input : List Page} (hqueue : s.queue p = tag :: rest) (hj : s.findJob p tag = some j)
    (hph : j.phase = .queued clamp input) : s.grantTo e p tag = { s with
      queues := s.queues.set p rest
      pointer := p
      jobs := s.jobs.map fun k =>
        if k.owner = p ∧ k.tag = tag then { j with phase := .decoding clamp input e } else k
      engines := s.engines.set e ((s.engine e).startPrime ⟨p, tag⟩ j.params) } := by
  have hqueued : j.isQueued = true := by simp only [Job.isQueued, hph]
  have hgranted : j.granted e = { j with phase := .decoding clamp input e } := by simp only [Job.granted, hph]
  rw [grantTo_queued hj hqueued, h.map_isFor hj, hgranted, hqueue]
  rfl

end State

/-- Settles O37: the conditions fix the choice, and `IdsDistinct.grantTo_eq` says what the event does; without a choice
nothing changes. -/
theorem grantBindsFirstJob : Obligations.GrantBindsFirstJob := by
  refine ⟨fun s e before after p tag rest j clamp input hreset hids hidle hfirst horder hbefore hqueue hj hph => ?_,
    fun s hnone => ?_⟩
  · have hsearch : searchOrder s.pointer = before ++ p :: after := by
      rw [← horder]
      cases s.pointer <;> rfl
    have hhead : s.firstHead (searchOrder s.pointer) = some (p, tag) := by
      rw [hsearch, State.firstHead_append hbefore hqueue]
    show Host.Outcome.next s.grant = _
    rw [State.grant_of_choice hreset (State.idleEngine_eq hidle hfirst) hhead, hids.grantTo_eq hqueue hj hph]
    rfl
  · refine congrArg Host.Outcome.next (State.grant_of_no_choice ?_)
    obtain hreset | hbusy | hempty := hnone
    · exact .inl hreset
    · refine .inr ?_
      rw [State.grantChoice, State.idleEngine_eq_none hbusy]
    · refine .inr ?_
      rw [State.grantChoice, State.firstHead_eq_none fun q _ => hempty q]
      cases s.idleEngine <;> rfl

/-- Settles O38: a grant moves the pointer to the port it serves, and the search order ends with the pointer's port. -/
theorem grantConsidersPointerLast : Obligations.GrantConsidersPointerLast := by
  intro s t hexec hengines hpointer q hq
  cases hexec
  change s.grant.engines ≠ s.engines at hengines
  change s.grant.pointer = s.pointer at hpointer
  by_cases hreset : s.deviceReset = true
  · exact absurd (congrArg State.engines (State.grant_of_no_choice (.inl hreset))) hengines
  cases hchoice : s.grantChoice with
  | none => exact absurd (congrArg State.engines (State.grant_of_no_choice (.inr hchoice))) hengines
  | some choice =>
    obtain ⟨e, p, tag⟩ := choice
    obtain ⟨hidle, hhead⟩ := State.grantChoice_some hchoice
    rw [State.grant_of_choice (Bool.eq_false_iff.2 hreset) hidle hhead] at hengines hpointer
    by_cases hjob : ∃ j, s.findJob p tag = some j ∧ j.isQueued = true
    · obtain ⟨j, hj, hqueued⟩ := hjob
      rw [State.grantTo_queued hj hqueued] at hpointer
      have hp : p = s.pointer := hpointer
      rw [hp, State.searchOrder_eq] at hhead
      exact State.queue_eq_nil_of_firstHead_last (fun h => State.mem_portsBeforePointer.1 h rfl) hhead q
        (State.mem_portsBeforePointer.2 hq)
    · refine absurd (congrArg State.engines (State.grantTo_of_not_isQueued fun j hj => ?_)) hengines
      exact Bool.eq_false_iff.2 fun hqueued => hjob ⟨j, hj, hqueued⟩

end Sys2Proof.Machine
end

section
/-! PROOF. The ends of the stages at their boundaries (R91): the passes (R98, R99), the end of STORE and the completion report
(R110), and the abort report (R93). -/

namespace Sys2Proof.Machine

namespace State

variable {s : State} {e : EngineId} {j : Job} {pr : Params}

/-! ### A boundary after the engine's own work -/

theorem modEngine_modEngine (s : State) (e : EngineId) (f g : Engine → Engine) :
    (s.modEngine e f).modEngine e g = s.modEngine e fun x => g (f x) := by
  cases e <;> rfl

/-- A boundary that reads no: the work, a clear abort-seen flag, and the next stage, in one change of the engine. -/
theorem boundary_stage_no (habort : j.abortRequested = false) (work next : Engine → Engine) :
    (s.modEngine e work).boundary e j (fun s => s.modEngine e next) =
      s.modEngine e fun g => next { work g with abortSeen := false } := by
  rw [boundary_no habort, modEngine_modEngine, modEngine_modEngine]

/-- A boundary that reads yes: the work stands, and the abort report is made. -/
theorem boundary_stage_yes (habort : j.abortRequested = true) (work : Engine → Engine) (proceed : State → State) :
    (s.modEngine e work).boundary e j proceed =
      (s.modEngine e fun g => { work g with abortSeen := true }).abortReport e j := by
  rw [boundary_yes habort, modEngine_modEngine]

section stages
variable {s : State} {e : EngineId} {j : Job} {pr : Params}

theorem Working.endOfPrime_eq (h : s.Working e .prime j pr) : s.endOfPrime e =
    (s.modEngine e fun g =>
      { g with permMemory := writePermMemory g.permMemory (s.primePermutation j.inputPages pr).1 }).boundary e j
        fun t => t.modEngine e (·.afterPrime (s.primePermutation j.inputPages pr).2) := by
  simp only [endOfPrime, h.inStage_eq]

theorem Working.endOfPass1_eq (h : s.Working e .pass1 j pr) : s.endOfPass1 e =
    (s.modEngine e fun g =>
      { g with work := pass1Work pr.k g.work (s.pass1Input j.inputPages pr.k (s.engine e).work) }).boundary e j
        fun t => t.modEngine e fun g => { g with stage := .pass2 } := by
  simp only [endOfPass1, h.inStage_eq]

theorem Working.endOfPass2_eq (h : s.Working e .pass2 j pr) : s.endOfPass2 e =
    (s.modEngine e fun g => { g with
      work := pass2Work pr.k (s.pass2Input j.inputPages pr.k (s.engine e).permMemory (s.engine e).work) }).boundary e j
        fun t => t.modEngine e fun g => { g with stage := .evaluate } := by
  simp only [endOfPass2, h.inStage_eq]

theorem Working.endOfStore_eq (h : s.Working e .store j pr) {po : PendingOutcome}
    (hpo : (s.engine e).pending = some po) : s.endOfStore e =
    (s.writeArea j.output 0 (storeBytes pr po (s.engine e).work)).boundary e j fun t => t.completionReport e j po := by
  simp only [endOfStore, h.inStage_eq, hpo]

end stages

end State

/-- Settles O40: each pass ends in one change of its engine, with the values that `pass1Input` and `pass2Input` read. -/
theorem passesReadAndWrite : Obligations.PassesReadAndWrite := by
  refine ⟨fun s e j pr h habort => ?_, fun s e j pr h habort => ?_⟩
  · show Host.Outcome.next (s.endOfPass1 e) = _
    rw [h.endOfPass1_eq, State.boundary_stage_no habort]
    simp only [State.pass1Input, State.softRange, Nat.zero_add]
    rfl
  · show Host.Outcome.next (s.endOfPass2 e) = _
    rw [h.endOfPass2_eq, State.boundary_stage_no habort]
    rfl

/-! ### The abort report (R14, R93) -/

namespace State

variable {s : State} {e : EngineId} {j : Job} {clamp : Nat} {input : List Page}

/-- A freed job that an engine holds has no tie to undo. -/
theorem freed_of_onEngine (hj : j.onEngine = true) (f : PortUnit → PortUnit) : s.freed j f = { s with
    jobs := s.jobs.filter fun k => !(k.owner == j.owner && k.tag == j.tag)
    free := s.free ++ (j.inputPages ++ j.output)
    ports := s.ports.set j.owner (f (s.port j.owner)) } := by
  have hqueues : s.queues.set j.owner (s.queue j.owner) = s.queues := PerPort.set_get ..
  cases hph : j.phase with
  | decoding | aborting =>
    simp only [freed, Job.isStaging, Job.isQueued, Job.isDelivering, hph, Bool.false_eq_true, if_false, hqueues]
  | staging | queued | held | delivering => simp [Job.onEngine, Job.engine, hph] at hj

theorem abortReport_eq (hph : j.phase = .aborting clamp input e) (s : State) : s.abortReport e j = { s with
    jobs := s.jobs.filter fun k => !(k.owner == j.owner && k.tag == j.tag)
    free := s.free ++ (input ++ j.output)
    engines := s.engines.set e (s.engine e).toIdle
    ports := s.ports.set j.owner
      ((s.port j.owner).pushNotice { kind := .aborted, tag := j.tag, result := none }) } := by
  have honengine : j.onEngine = true := by simp [Job.onEngine, Job.engine, hph]
  have hinput : j.inputPages = input := by simp only [Job.inputPages, hph]
  -- The notice and the engine's part are of different blocks.
  show ((s.freeJob j).modPort j.owner (·.pushNotice _)).modEngine e Engine.toIdle = _
  rw [modPort_freeJob, freed_of_onEngine honengine, hinput]
  rfl

/-- An abort report after work that has changed the bytes of pages and the engine. -/
theorem abortReport_of_work (hph : j.phase = .aborting clamp input e) (s : State) (m : Memory) (c : BitVec 256)
    (g : Engine) :
    let t := { s with mem := m, clean := c, engines := s.engines.set e g }.abortReport e j
    t.mem = m ∧ t.clean = c ∧ t = { s with
      mem := t.mem, clean := t.clean
      free := s.free ++ (input ++ j.output)
      jobs := s.jobs.filter fun k => !(k.owner == j.owner && k.tag == j.tag)
      engines := s.engines.set e { (s.engine e).idled with
        permMemory := (t.engine e).permMemory, work := (t.engine e).work }
      ports := s.ports.set j.owner
        ((s.port j.owner).pushNotice { kind := .aborted, tag := j.tag, result := none }) } := by
  intro t
  have ht : t = _ := abortReport_eq hph _
  have hset : (s.engines.set e g).set e (State.engine { s with engines := s.engines.set e g } e).toIdle =
      s.engines.set e g.toIdle := by cases e <;> rfl
  have hengine : t.engine e = g.toIdle := by
    rw [ht]
    cases e <;> rfl
  refine ⟨by rw [ht], by rw [ht], ?_⟩
  rw [hengine, ht]
  exact congrArg (fun engines => { s with
    mem := m, clean := c
    free := s.free ++ (input ++ j.output)
    jobs := s.jobs.filter fun k => !(k.owner == j.owner && k.tag == j.tag)
    engines := engines
    ports := s.ports.set j.owner
      ((s.port j.owner).pushNotice { kind := .aborted, tag := j.tag, result := none }) }) hset

end State

/-- Settles O45: at each of the four boundaries the abort report follows the work of the stage, which at the end of STORE is
the writing of the output. -/
theorem boundaryReportsAbort : Obligations.BoundaryReportsAbort := by
  intro s e j pr clamp input c hc hworking hph habort hpending
  suffices hwork : ∃ m cl g, exec c.1 s = .next (State.abortReport
      { s with mem := m, clean := cl, engines := s.engines.set e g } e j) ∧
      (s.mem.wf → ∀ pg x, x < 1024 → (c.2 = .store → pg ∉ j.output) →
        State.readPage { s with mem := m, clean := cl } pg x = s.readPage pg x) by
    obtain ⟨m, cl, g, hexec, hpages⟩ := hwork
    obtain ⟨hmem, hclean, ht⟩ := State.abortReport_of_work hph s m cl g
    refine ⟨_, hexec, fun hwf pg x hx hpg => ?_, ht⟩
    exact (State.readPage_congr hmem hclean pg x).trans (hpages hwf pg x hx hpg)
  -- The first three stages work in the engine alone.
  have hstage {work : Engine → Engine} {proceed : State → State}
      (hexec : exec c.1 s = .next ((s.modEngine e work).boundary e j proceed)) : ∃ m cl g, exec c.1 s =
        .next (State.abortReport { s with mem := m, clean := cl, engines := s.engines.set e g } e j) ∧
      (s.mem.wf → ∀ pg x, x < 1024 → (c.2 = .store → pg ∉ j.output) →
        State.readPage { s with mem := m, clean := cl } pg x = s.readPage pg x) := by
    refine ⟨s.mem, s.clean, { work (s.engine e) with abortSeen := true }, ?_, fun _ _ _ _ _ => rfl⟩
    rw [hexec, State.boundary_stage_yes habort]
    rfl
  simp only [List.mem_cons, List.not_mem_nil, or_false] at hc
  obtain rfl | rfl | rfl | rfl := hc
  · exact hstage (congrArg Host.Outcome.next hworking.endOfPrime_eq)
  · exact hstage (congrArg Host.Outcome.next hworking.endOfPass1_eq)
  · exact hstage (congrArg Host.Outcome.next hworking.endOfPass2_eq)
  · obtain ⟨po, hpo⟩ := Option.isSome_iff_exists.1 (hpending rfl)
    have hstore := hworking.endOfStore_eq hpo
    generalize storeBytes pr po (s.engine e).work = vs at hstore
    have hframe := s.writeArea_frame j.output 0 vs
    refine ⟨(s.writeArea j.output 0 vs).mem, (s.writeArea j.output 0 vs).clean, { s.engine e with abortSeen := true },
      congrArg Host.Outcome.next ?_, fun hwf pg x hx hpg => ?_⟩
    · show s.endOfStore e = _
      rw [hstore, State.boundary_yes habort]
      generalize s.writeArea j.output 0 vs = u at hframe
      rw [hframe]
      rfl
    · rw [← State.readPage_writeArea_other hwf 0 vs (hpg rfl) hx]
      exact State.readPage_congr rfl rfl pg x

/-! ### The end of STORE (R110, R138) -/

/-- The deadline as a sum of numbers. -/
theorem deadlineFor_eq (t : Tick) (limit : HoldLimit) :
    deadlineFor t limit = if limit = 0 then none else some (BitVec.ofNat 32 (t.toNat + limit.toNat + 1)) := by
  have hsum : t + limit.setWidth 32 + 1#32 = BitVec.ofNat 32 (t.toNat + limit.toNat + 1) := by
    refine BitVec.eq_of_toNat_eq ?_
    have := limit.isLt
    simp only [BitVec.toNat_add, BitVec.toNat_setWidth, BitVec.toNat_ofNat]
    omega
  rw [deadlineFor, hsum]
  rfl

namespace State

theorem readArea_congr {s t : State} (hmem : s.mem = t.mem) (hclean : s.clean = t.clean) (pages : List Page) (o : Nat) :
    s.readArea pages o = t.readArea pages o := by
  unfold readArea
  split
  · exact readPage_congr hmem hclean ..
  · rfl

/-- The completion report on the one live job of its identity (R13, R110). -/
theorem IdsDistinct.completionReport_eq {s : State} (h : s.IdsDistinct) {e : EngineId} {j : Job} {clamp : Nat}
    {input : List Page} (hj : s.findJob j.owner j.tag = some j) (hph : j.phase = .decoding clamp input e)
    (po : PendingOutcome) : s.completionReport e j po = { s with
      free := s.free ++ input
      jobs := s.jobs.map fun k => if k.owner = j.owner ∧ k.tag = j.tag then { j with
        phase := .held (po.outcome clamp e) (deadlineFor s.tick (s.port j.owner).holdLimit) false } else k
      engines := s.engines.set e (s.engine e).toIdle
      ports := s.ports.set j.owner ((s.port j.owner).pushNotice (endNotice j.tag po)) } := by
  have hclamp : j.inputClamp = some clamp := by simp only [Job.inputClamp, hph]
  have hinput : j.inputPages = input := by simp only [Job.inputPages, hph]
  have hjobs := h.map_isFor hj fun k =>
    { k with phase := .held (po.outcome clamp e) (deadlineFor s.tick (s.port j.owner).holdLimit) false }
  rw [completionReport, hclamp, hinput, modJob, returnPages_jobs, Option.getD_some, hjobs]
  rfl

end State

/-- Settles O43: the output is written and the job completed, as `IdsDistinct.completionReport_eq` says. -/
theorem endOfStoreCompletesJob : Obligations.EndOfStoreCompletesJob := by
  intro s e j pr po clamp input hworking hpo hph habort hids hwf hnodup out limit deadline hfits
  have hframe := s.writeArea_frame j.output 0 out
  have hexec : exec (.endOfStore e) s = .next (State.completionReport { s with
      mem := (s.writeArea j.output 0 out).mem, clean := (s.writeArea j.output 0 out).clean
      engines := s.engines.set e { s.engine e with abortSeen := false } } e j po) := by
    refine congrArg Host.Outcome.next ((hworking.endOfStore_eq hpo).trans ?_)
    show (s.writeArea j.output 0 out).boundary e j _ = _
    rw [State.boundary_no habort]
    generalize s.writeArea j.output 0 out = u at hframe
    rw [hframe]
    rfl
  have hdone := State.IdsDistinct.completionReport_eq (s := { s with
    mem := (s.writeArea j.output 0 out).mem, clean := (s.writeArea j.output 0 out).clean
    engines := s.engines.set e { s.engine e with abortSeen := false } }) hids hworking.found hph po
  refine ⟨_, hexec, fun o => ?_, fun pg x hx hpg => ?_, ?_⟩
  all_goals rw [hdone]
  · have hread := State.readArea_writeArea hwf hnodup (o := 0) (vs := out) (by simpa using hfits) o
    simp only [Nat.zero_le, true_and, Nat.zero_add, Nat.sub_zero] at hread
    exact (State.readArea_congr rfl rfl j.output o).trans hread
  · rw [← State.readPage_writeArea_other hwf 0 out hpg hx]
    exact State.readPage_congr rfl rfl pg x
  · rw [deadlineFor_eq]
    cases e <;> rfl

end Sys2Proof.Machine
end

section
/-! PROOF. The end of PRIME (R94 to R97): the stored indexes of a CLIENT permutation, the generated indexes up to the first
repeat, and what the permutation memory then reads. -/

namespace Sys2Proof.Machine

/-! ### The permutation memory (R97) -/

/-- The zeros at the end of a list read as 0 without them. -/
theorem getD_trimZeros (l : List Nat) (i : Nat) : (trimZeros l).getD i 0 = l.getD i 0 := by
  induction l generalizing i with
  | nil => rfl
  | cons x l ih =>
    have hcons : trimZeros (x :: l) = if x = 0 ∧ trimZeros l = [] then [] else x :: trimZeros l := rfl
    rw [hcons]
    split
    · next hzero =>
      obtain ⟨rfl, hnil⟩ := hzero
      cases i with
      | zero => rfl
      | succ i =>
        rw [List.getD_cons_succ, ← ih, hnil]
        rfl
    · cases i with
      | zero => rfl
      | succ i => exact ih i

/-- The first entries are those written, and the others keep their values. -/
theorem getD_writePermMemory (old : List Nat) (n : Nat) (index : Nat → Nat) (i : Nat) :
    (writePermMemory old ((List.range n).map index)).getD i 0 = if i < n then index i else old.getD i 0 := by
  rw [writePermMemory, getD_trimZeros, List.length_map, List.length_range]
  split
  · next hi =>
    rw [List.getD_append _ _ _ _ (by simpa using hi)]
    simp [hi]
  · next hi =>
    have hi : n ≤ i := Nat.not_lt.1 hi
    rw [List.getD_append_right _ _ _ _ (by simpa using hi)]
    simp [List.getD_eq_getElem?_getD, Nat.add_sub_cancel' hi]

/-! ### The generated permutation (R95) -/

/-- The marks of the indexes before position i. -/
def MarksBefore (index : Nat → Nat) (i : Nat) (marks : BitVec 8192) : Prop :=
  ∀ x < 8192, marks.getLsbD x = true ↔ ∃ a < i, index a = x

theorem MarksBefore.succ {index : Nat → Nat} {i : Nat} {marks : BitVec 8192} (h : MarksBefore index i marks) :
    MarksBefore index (i + 1) (marks ||| indexMark (index i)) := by
  intro x hx
  rw [BitVec.getLsbD_or, getLsbD_indexMark _ _ hx, Bool.or_eq_true, h x hx, decide_eq_true_eq]
  constructor
  · rintro (⟨a, ha, rfl⟩ | rfl)
    · exact ⟨a, Nat.lt_succ_of_lt ha, rfl⟩
    · exact ⟨i, Nat.lt_succ_self i, rfl⟩
  · rintro ⟨a, ha, rfl⟩
    obtain ha | rfl := Nat.lt_succ_iff_lt_or_eq.1 ha
    · exact .inl ⟨a, ha, rfl⟩
    · exact .inr rfl

section generateFrom
variable {k f1 f2 : Nat} {marks : BitVec 8192} (hk : k ≤ 8192) (hpos : 1 ≤ k)
include hk hpos

theorem generatedIndex_lt (i : Nat) : generatedIndex k f1 f2 i < 8192 :=
  (Nat.mod_lt _ hpos).trans_le hk

/-- An index that no earlier position has is kept, and the next position follows. -/
theorem generateFrom_succ_new {n i : Nat} (hmarks : MarksBefore (generatedIndex k f1 f2) i marks)
    (hnew : ∀ a < i, generatedIndex k f1 f2 a ≠ generatedIndex k f1 f2 i) :
    generateFrom k f1 f2 (n + 1) i marks =
      (generatedIndex k f1 f2 i :: (generateFrom k f1 f2 n (i + 1) (marks ||| indexMark (generatedIndex k f1 f2 i))).1,
        (generateFrom k f1 f2 n (i + 1) (marks ||| indexMark (generatedIndex k f1 f2 i))).2) := by
  have hunmarked : ¬ marks.getLsbD (generatedIndex k f1 f2 i) = true := fun hmark => by
    obtain ⟨a, ha, heq⟩ := (hmarks _ (generatedIndex_lt hk hpos i)).1 hmark
    exact hnew a ha heq
  exact if_neg hunmarked

theorem generateFrom_of_injective {n i : Nat} (hmarks : MarksBefore (generatedIndex k f1 f2) i marks)
    (h : ∀ a b, a < b → b < i + n → generatedIndex k f1 f2 a ≠ generatedIndex k f1 f2 b) :
    generateFrom k f1 f2 n i marks = ((List.range' i n).map (generatedIndex k f1 f2), true) := by
  induction n generalizing i marks with
  | zero => rfl
  | succ n ih =>
    rw [generateFrom_succ_new hk hpos hmarks fun a ha => h a i ha (by omega),
      ih hmarks.succ fun a b hab hb => h a b hab (by omega)]
    rfl

theorem generateFrom_of_repeat {n i repeated : Nat} (hmarks : MarksBefore (generatedIndex k f1 f2) i marks)
    (hi : i ≤ repeated) (hn : repeated < i + n)
    (hrepeat : ∃ a < repeated, generatedIndex k f1 f2 a = generatedIndex k f1 f2 repeated)
    (hfirst : ∀ a b, a < b → b < repeated → generatedIndex k f1 f2 a ≠ generatedIndex k f1 f2 b) :
    generateFrom k f1 f2 n i marks = ((List.range' i (repeated - i)).map (generatedIndex k f1 f2), false) := by
  induction n generalizing i marks with
  | zero => omega
  | succ n ih =>
    obtain rfl | hlt := Nat.eq_or_lt_of_le hi
    · rw [Nat.sub_self]
      exact if_pos ((hmarks _ (generatedIndex_lt hk hpos i)).2 hrepeat)
    · have hlength : repeated - i = repeated - (i + 1) + 1 := by omega
      rw [generateFrom_succ_new hk hpos hmarks fun a ha => hfirst a i ha hlt, ih hmarks.succ hlt (by omega), hlength]
      rfl

theorem generatePermutation_of_injective
    (h : ∀ a b, a < b → b < k → generatedIndex k f1 f2 a ≠ generatedIndex k f1 f2 b) :
    generatePermutation k f1 f2 = ((List.range k).map (generatedIndex k f1 f2), true) := by
  rw [generatePermutation, generateFrom_of_injective hk hpos (by simp [MarksBefore])
    fun a b hab hb => h a b hab (by omega), List.range_eq_range']

theorem generatePermutation_of_repeat {repeated : Nat} (hn : repeated < k)
    (hrepeat : ∃ a < repeated, generatedIndex k f1 f2 a = generatedIndex k f1 f2 repeated)
    (hfirst : ∀ a b, a < b → b < repeated → generatedIndex k f1 f2 a ≠ generatedIndex k f1 f2 b) :
    generatePermutation k f1 f2 = ((List.range repeated).map (generatedIndex k f1 f2), false) := by
  rw [generatePermutation, generateFrom_of_repeat hk hpos (by simp [MarksBefore]) (Nat.zero_le _) (by omega) hrepeat
    hfirst, Nat.sub_zero, List.range_eq_range']

end generateFrom

/-! ### The stored permutation (R94) -/

/-- The two halves of a word at an even offset are the little-endian numbers of its byte pairs. -/
theorem State.storedIndex_eq (s : State) (pages : List Page) (k i : Nat) : s.storedIndex pages k i =
    (s.readArea pages (12 * softWords k + 2 * i)).toNat +
      256 * (s.readArea pages (12 * softWords k + 2 * i + 1)).toNat := by
  generalize hbase : 12 * softWords k + 4 * (i / 2) = base
  have h0 := (s.readArea pages base).isLt
  have h1 := (s.readArea pages (base + 1)).isLt
  have hword : (s.readAreaWord pages base).toNat = (s.readArea pages base).toNat +
      2 ^ 8 * (s.readArea pages (base + 1)).toNat + 2 ^ 16 * (s.readArea pages (base + 2)).toNat +
      2 ^ 24 * (s.readArea pages (base + 3)).toNat := by
    simp only [readAreaWord, toNat_append_eq_add]
    omega
  rw [storedIndex, hbase]
  split
  · next heven =>
    have hoffset : 12 * softWords k + 2 * i = base := by omega
    have h2 := (s.readArea pages (base + 2)).isLt
    rw [halfIndex_low, hword, hoffset]
    omega
  · next hodd =>
    have hoffset : 12 * softWords k + 2 * i = base + 2 := by omega
    rw [halfIndex_high, hword, hoffset, Nat.add_assoc base 2 1]
    omega

/-! ### The engine after PRIME -/

namespace State

/-- The end of PRIME without an abort changes the engine alone. -/
theorem Working.exec_endOfPrime {s : State} {e : EngineId} {j : Job} {pr : Params} (h : s.Working e .prime j pr)
    (habort : j.abortRequested = false) {entries : List Nat} {valid : Bool}
    (hperm : s.primePermutation j.inputPages pr = (entries, valid)) :
    exec (.endOfPrime e) s = .next { s with engines := s.engines.set e (Engine.afterPrime { s.engine e with
      permMemory := writePermMemory (s.engine e).permMemory entries, abortSeen := false } valid) } := by
  show Host.Outcome.next (s.endOfPrime e) = _
  rw [h.endOfPrime_eq, boundary_stage_no habort, hperm]
  rfl

end State

/-- Settles O39: the permutation memory holds the stored indexes, or the generated ones up to the first repeat, and the
engine goes on accordingly. -/
theorem endOfPrimeLoadsPermutation : Obligations.EndOfPrimeLoadsPermutation := by
  intro s e j pr hworking habort hiteration hpos hk stored loads passes stops
  have hpasses {index : Nat → Nat} (hperm : s.primePermutation j.inputPages pr = ((List.range pr.k).map index, true)) :
      loads passes pr.k index := by
    refine ⟨_, getD_writePermMemory _ pr.k index, ?_⟩
    rw [hworking.exec_endOfPrime habort hperm, Engine.afterPrime, if_pos rfl, hiteration]
  have hstops {index : Nat → Nat} {n : Nat}
      (hperm : s.primePermutation j.inputPages pr = ((List.range n).map index, false)) : loads stops n index :=
    ⟨_, getD_writePermMemory _ n index, hworking.exec_endOfPrime habort hperm⟩
  refine ⟨fun hclient => ?_, fun f1 f2 hgenerated => ?_⟩
  · refine hpasses ?_
    rw [State.primePermutation, hclient]
    exact congrArg (·, true) (List.map_congr_left fun i _ => s.storedIndex_eq j.inputPages pr.k i)
  · intro index
    have hindex : index = generatedIndex pr.k f1 f2 := funext fun i => by simp only [index, generatedIndex, pow_two]
    have hprime : s.primePermutation j.inputPages pr = generatePermutation pr.k f1 f2 := by
      rw [State.primePermutation, hgenerated]
    rw [hindex]
    refine ⟨fun hinjective => hpasses ?_, fun repeated hlt hrepeat hfirst => hstops ?_⟩
    · rw [hprime, generatePermutation_of_injective hk hpos hinjective]
    · rw [hprime, generatePermutation_of_repeat hk hpos hlt hrepeat hfirst]

end Sys2Proof.Machine
end

section
/-! PROOF. The hold timer's events (R136, R139), the device reset and its release (R170 to R172), and the state after reset. -/

namespace Sys2Proof.Machine

/-! ### The hold timer -/

theorem tick_succ (t : Tick) : BitVec.ofNat 32 ((t.toNat + 1) % 2 ^ 32) = t + 1#32 := by
  refine BitVec.eq_of_toNat_eq ?_
  simp only [BitVec.toNat_add, BitVec.toNat_ofNat]
  omega

/-- Settles O47: a tick maps `Job.raiseExpiry` over the table, which changes a HELD job with an armed deadline alone. -/
theorem tickCountsAndRaises : Obligations.TickCountsAndRaises := by
  refine ⟨fun s hreset => ?_, fun s hreset => congrArg Host.Outcome.next (State.tickOnce_reset hreset)⟩
  intro now
  have hnow : now = s.tick + 1#32 := tick_succ s.tick
  have htick := State.tickOnce_running hreset
  rw [← hnow] at htick
  show Host.Outcome.next s.tickOnce = _
  rw [htick]
  refine congrArg (fun jobs => Host.Outcome.next { s with tick := now, jobs := jobs }) (List.map_congr_left fun j _ => ?_)
  obtain ⟨_, _, _, _, _, phase⟩ := j
  cases phase with
  | held o d raised => cases d <;> rfl
  | staging | queued | decoding | aborting | delivering => rfl

/-- An expiry can be taken of a HELD job whose deadline is armed and reached (R139). -/
theorem Job.expiryDue_iff (j : Job) (now : Tick) : j.expiryDue now = true ↔
    ∃ o d raised, j.phase = .held o (some d) raised ∧ (d = now ∨ raised = true) := by
  cases hph : j.phase with
  | held o d raised =>
    cases d with
    | none => simp [expiryDue, hph]
    | some d =>
      have hdue : j.expiryDue now = true ↔ d = now ∨ raised = true := by simp [expiryDue, hph]
      rw [hdue]
      constructor
      · exact fun h => ⟨o, d, raised, rfl, h⟩
      · rintro ⟨_, _, _, heq, h⟩
        cases heq
        exact h
  | staging | queued | decoding | aborting | delivering => simp [expiryDue, hph]

namespace State

variable {s : State} {p : Port} {tag : Tag} {j : Job}

theorem expireJob_due (hreset : s.deviceReset = false) (hj : s.findJob p tag = some j) (hdue : j.expiryDue s.tick = true) :
    s.expireJob p tag = s.freed j (·.pushNotice { kind := .expired, tag := tag, result := none }) := by
  obtain ⟨-, rfl, -⟩ := findJob_some hj
  rw [← modPort_freeJob]
  simp only [expireJob, hj, hreset, hdue, Bool.not_false, Bool.and_true, if_true]
  rfl

theorem expireJob_not_due (h : s.deviceReset = true ∨ ∀ j, s.findJob p tag = some j → j.expiryDue s.tick = false) :
    s.expireJob p tag = s := by
  unfold expireJob
  split
  · next j hj =>
    refine if_neg fun hdue => ?_
    obtain ⟨hreset, hdue⟩ := Bool.and_eq_true_iff.1 hdue
    obtain h | h := h
    · simp [h] at hreset
    · simp [h j hj] at hdue
  · rfl

end State

/-- Settles O48: the expiry frees the job and pushes its notice when it is due, and is not taken otherwise. -/
theorem expiryFreesHeldJob : Obligations.ExpiryFreesHeldJob := by
  refine ⟨fun s p tag j o d raised hreset hj hph hdue => ?_, fun s p tag hnone => ?_⟩
  · exact congrArg Host.Outcome.next
      (State.expireJob_due hreset hj ((j.expiryDue_iff _).2 ⟨o, d, raised, hph, hdue⟩))
  · refine congrArg Host.Outcome.next (State.expireJob_not_due ?_)
    obtain hreset | hnone | ⟨j, hj, hnot⟩ := hnone
    · exact .inl hreset
    · exact .inr fun j hj => absurd (hnone.symm.trans hj) nofun
    · refine .inr fun k hk => Bool.eq_false_iff.2 fun hdue => ?_
      obtain rfl := Option.some.inj (hj.symm.trans hk)
      obtain ⟨o, d, raised, hph, hd⟩ := (j.expiryDue_iff _).1 hdue
      obtain ⟨hne, hlow⟩ := hnot o d raised hph
      exact hd.elim hne fun hraised => absurd (hlow.symm.trans hraised) nofun

/-! ### The device reset (R170, R171) -/

namespace State

variable {s : State}

theorem readPage_of_isClean {pg : Page} (h : s.isClean pg = true) (x : Nat) : s.readPage pg x = 0#8 := if_pos h

theorem isClean_deviceResetWith (s : State) (units : PerPort PortUnit) (pg : Page) :
    (s.deviceResetWith units).isClean pg = true := by
  show (BitVec.allOnes 256).getLsbD pg.val = true
  rw [BitVec.getLsbD_allOnes]
  exact decide_eq_true pg.isLt

theorem reset_free : State.reset.free = List.finRange 256 := by simp only [State.reset]

/-- The values that the device reset gives, whatever the state before. -/
theorem deviceReset_values (s : State) {units : PerPort PortUnit} {bus : Port → BusAnswer}
    (hunits : ∀ p, units.get p = { PortUnit.reset with resetHeld := (s.port p).resetHeld, bus := bus p }) :
    let t := s.deviceResetWith units
    t.deviceReset = true ∧ t.jobs = [] ∧ t.free = List.finRange 256 ∧
      (∀ pg, t.isClean pg = true) ∧ (∀ pg x, t.readPage pg x = 0#8) ∧ (∀ p, t.queue p = []) ∧ t.pointer = .d ∧
      t.tick = 0 ∧ t.pending = s.pending ∧ (∀ e, t.engine e = Engine.reset) ∧
      (∀ p, t.port p = { PortUnit.reset with resetHeld := (s.port p).resetHeld, bus := bus p }) ∧
      ∀ p, t.irq p = false := by
  intro t
  have hclean := s.isClean_deviceResetWith units
  refine ⟨rfl, rfl, by simp only [t, deviceResetWith, reset_free], hclean, fun pg => readPage_of_isClean (hclean pg), fun p => by cases p <;> rfl, rfl, rfl, rfl,
    fun e => by cases e <;> rfl, hunits, fun p => ?_⟩
  have henables : (t.port p).enables = 0#6 := congrArg PortUnit.enables (hunits p)
  rw [irq, PortUnit.irq, PortUnit.enabledStatus, henables, BitVec.and_zero]
  rfl

/-- While the device reset is asserted no stage of an engine ends. -/
theorem inStage_of_deviceReset (h : s.deviceReset = true) (e : EngineId) (stage : Stage) : s.inStage e stage = none := by
  simp only [inStage, h, Bool.true_or, if_true]

/-- The events of the dispatcher, the engines and the timer that a device reset stops. -/
theorem exec_of_deviceReset (h : s.deviceReset = true) (e : EngineId) : ∀ c ∈ [Instr.grant, .tick, .endOfPrime e,
    .endOfPass1 e, .endOfPass2 e, .endOfEvaluate e, .endOfStore e], exec c s = .next s := by
  have hstage := inStage_of_deviceReset h e
  simp only [List.forall_mem_cons, List.not_mem_nil, false_imp_iff, implies_true, and_true]
  refine ⟨congrArg Host.Outcome.next (grant_of_no_choice (.inl h)), congrArg Host.Outcome.next (tickOnce_reset h), ?_, ?_, ?_,
    ?_, ?_⟩
  · show Host.Outcome.next (s.endOfPrime e) = _
    simp only [endOfPrime, hstage]
  · show Host.Outcome.next (s.endOfPass1 e) = _
    simp only [endOfPass1, hstage]
  · show Host.Outcome.next (s.endOfPass2 e) = _
    simp only [endOfPass2, hstage]
  · show Host.Outcome.next (s.endOfEvaluate e) = _
    simp only [endOfEvaluate, hstage]
  · show Host.Outcome.next (s.endOfStore e) = _
    simp only [endOfStore, hstage]

theorem releaseDeviceReset_of_deviceReset (h : s.deviceReset = true) (prof1 prof0 : Bool) :
    s.releaseDeviceReset prof1 prof0 = { s with deviceReset := false, profile := profileOf prof1 prof0 } := if_pos h

end State

/-- Settles O49: both resets give the values of `State.deviceReset_values`, and while one is asserted the ports are closed
and no event is taken but its release. -/
theorem deviceResetValues : Obligations.DeviceResetValues := by
  refine ⟨fun s c bus hreset => ?_, fun s hreset => ?_⟩
  · obtain ⟨held, rfl, hbus⟩ | ⟨rfl, hbus⟩ := hreset
    · refine ⟨_, rfl, s.deviceReset_values fun p => ?_⟩
      have hanswer (b : Bool) (ans : BusAnswer) : (if b then ans.withdrawn else ans) = match b, ans with
          | true, .wrote true _ => .wrote true true
          | _, ans => ans := by
        cases b with
        | false => rfl
        | true => rcases ans with _ | ⟨_ | _, _⟩ | _ <;> rfl
      have hp := (hbus p).trans (hanswer (held.get p) (s.port p).bus).symm
      rw [hp]
      cases p <;> rfl
    · refine ⟨_, rfl, s.deviceReset_values fun p => ?_⟩
      rw [hbus p]
      cases p <;> rfl
  · have hclosed (p : Port) : ¬ s.Performs p := fun h => absurd (h.released.symm.trans hreset) nofun
    refine ⟨fun c p a w bus hc => (accessAnsweredByTable81.1 c s p a w bus hc).1 (hclosed p),
      fun c p a par hc => (accessAnsweredByTable81.2 c s p a par hc).1 (hclosed p),
      fun e => State.exec_of_deviceReset hreset e,
      fun p tag => congrArg Host.Outcome.next (State.expireJob_not_due (.inl hreset)),
      fun prof1 prof0 => congrArg Host.Outcome.next (State.releaseDeviceReset_of_deviceReset hreset prof1 prof0)⟩

/-! ### The profile (R172) -/

theorem State.Moves.profile_eq {live : Prop} {s t : State} (m : s.Moves live t) : t.profile = s.profile := by
  induction m with
  | refl => rfl
  | tail _ hlast ih => exact hlast.profile_eq.trans ih

/-- Settles O50: no move changes the profile, so only the release does; what a profile fixes is read off its tables. -/
theorem strapsSelectProfile : Obligations.StrapsSelectProfile := by
  refine ⟨fun s prof1 prof0 hreset => ⟨_, rfl, ?_⟩, fun c s t hexec => ?_, fun pf p => ?_⟩
  · rw [State.releaseDeviceReset_of_deviceReset hreset]
    cases prof1 <;> cases prof0 <;> rfl
  · obtain hmoves | ⟨⟨prof1, prof0, rfl⟩, hreset, -⟩ := moves_exec hexec
    · exact .inl hmoves.profile_eq
    · exact .inr ⟨prof1, prof0, rfl, hreset⟩
  · cases pf with
    | balanced | openShare | twoPort | leadPort => cases p <;> exact ⟨by decide, rfl, rfl⟩

/-! ### The state after reset -/

namespace State

theorem reset_jobs : State.reset.jobs = [] := rfl

theorem reset_port (p : Port) : State.reset.port p = PortUnit.reset := by cases p <;> rfl

theorem reset_engine (e : EngineId) : State.reset.engine e = Engine.reset := by cases e <;> rfl

theorem reset_queue (p : Port) : State.reset.queue p = [] := by cases p <;> rfl

/-- What no live job has, after reset. -/
theorem not_exists_reset_jobs {Law : Job → Prop} : ¬ ∃ j ∈ State.reset.jobs, Law j := by
  rw [reset_jobs]
  simp

theorem forall_reset_jobs {Law : Job → Prop} : ∀ j ∈ State.reset.jobs, Law j := by
  rw [reset_jobs]
  simp

theorem reset_idsDistinct : State.reset.IdsDistinct := by
  rw [IdsDistinct, reset_jobs]
  exact List.nodup_nil

theorem reset_pagesConserved : State.reset.PagesConserved := by
  refine ⟨reset_idsDistinct, ?_⟩
  rw [reset_jobs, reset_free, List.flatMap_nil, List.append_nil]

theorem reset_withinCeilings : State.reset.WithinCeilings := by
  refine ⟨fun _ => reset_jobs, ?_, fun p => ?_, fun p => ?_⟩
  · rw [reset_jobs]
    exact Nat.zero_le _
  · rw [liveCount, jobsOf, reset_jobs]
    exact Nat.zero_le _
  · rw [pagesHeld, jobsOf, reset_jobs]
    exact Nat.zero_le _

theorem reset_queuesTied : State.reset.QueuesTied := by
  refine ⟨reset_idsDistinct, fun p => ?_, fun p tag => ?_⟩
  all_goals rw [reset_queue]
  · exact List.nodup_nil
  · exact iff_of_false List.not_mem_nil not_exists_reset_jobs

theorem reset_slotsTied : State.reset.SlotsTied := by
  refine ⟨reset_idsDistinct, fun p tag => ?_⟩
  rw [reset_port]
  exact iff_of_false nofun not_exists_reset_jobs

theorem reset_windowsTied : State.reset.WindowsTied := by
  refine ⟨reset_idsDistinct, fun p tag => ?_⟩
  rw [reset_port]
  exact iff_of_false nofun not_exists_reset_jobs

theorem reset_bindingsTied : State.reset.BindingsTied := by
  refine ⟨reset_idsDistinct, fun e => ?_, fun e p tag => ?_⟩
  all_goals rw [reset_engine]
  · exact iff_of_true rfl rfl
  · exact iff_of_false nofun not_exists_reset_jobs

theorem reset_enginesSound : State.reset.EnginesSound := by
  refine ⟨forall_reset_jobs, fun e => ?_⟩
  rw [reset_engine]
  exact Engine.reset.sound_toIdle

theorem reset_heldPortsQuiet : State.reset.HeldPortsQuiet := by
  refine ⟨⟨reset_idsDistinct, forall_reset_jobs⟩, fun p hline => ?_⟩
  rw [reset_port] at hline
  cases hline

theorem reset_unitBounds : State.reset.NoticesBounded ∧ State.reset.CountsBounded ∧ State.reset.ClampBounded := by
  refine ⟨fun p => ?_, fun p st => ?_, fun p => ?_⟩
  all_goals rw [reset_port]
  · exact Nat.zero_le _
  · cases st <;> exact le_rfl
  · exact Nat.zero_le _

end State

/-- Settles O51: no job is live, so the laws of the jobs hold of nothing, and the units and engines have their reset
values. -/
theorem resetStateIsSound : Obligations.ResetStateIsSound := by
  obtain ⟨hnotices, hcounts, hclamp⟩ := State.reset_unitBounds
  refine ⟨rfl, rfl, State.reset_jobs, ?_, rfl, rfl, rfl, rfl, fun p => ?_, State.reset_pagesConserved,
    State.reset_withinCeilings, State.reset_queuesTied, State.reset_slotsTied, State.reset_windowsTied,
    State.reset_bindingsTied, State.reset_enginesSound, State.reset_heldPortsQuiet, State.forall_reset_jobs,
    ⟨State.reset_idsDistinct, fun e => State.forall_reset_jobs⟩, hnotices, hcounts, hclamp, State.reset_mem_wf⟩
  · rw [State.reset_free, List.length_finRange]
  · rw [State.irq, State.reset_port]
    exact ⟨rfl, rfl⟩

end Sys2Proof.Machine
end

section
/-! PROOF. The waiting commands matter to no row and change in none (log 5, 20): each operation on the state is the same
operation beside any other waiting commands, and every row is made of these. -/

namespace Sys2Proof.Machine

namespace State

/-- The state with other commands waiting. -/
def withPending (s : State) (l : List Instr) : State := { s with pending := l }

variable (s : State) (l : List Instr)

/-! ### What is read of a state does not see the waiting commands -/

section reads
variable (p : Port) (t : Tag)

@[simp] theorem withPending_deviceReset : (s.withPending l).deviceReset = s.deviceReset := rfl
@[simp] theorem withPending_jobs : (s.withPending l).jobs = s.jobs := rfl
@[simp] theorem withPending_tick : (s.withPending l).tick = s.tick := rfl
@[simp] theorem withPending_port : (s.withPending l).port p = s.port p := rfl
@[simp] theorem withPending_engine (e : EngineId) : (s.withPending l).engine e = s.engine e := rfl
@[simp] theorem withPending_queue : (s.withPending l).queue p = s.queue p := rfl
@[simp] theorem withPending_findJob : (s.withPending l).findJob p t = s.findJob p t := rfl
@[simp] theorem withPending_namedTag : (s.withPending l).namedTag p = s.namedTag p := rfl
@[simp] theorem withPending_openRecord : (s.withPending l).openRecord p = s.openRecord p := rfl
@[simp] theorem withPending_openAnswer (r : OpenRecord) : (s.withPending l).openAnswer p r = s.openAnswer p r := rfl
@[simp] theorem withPending_resetFrees : (s.withPending l).resetFrees p = s.resetFrees p := rfl
@[simp] theorem withPending_abortingCount : (s.withPending l).abortingCount p = s.abortingCount p := rfl
@[simp] theorem withPending_portClosed : (s.withPending l).portClosed p = s.portClosed p := rfl
@[simp] theorem withPending_windowWord (o : Nat) : (s.withPending l).windowWord p o = s.windowWord p o := rfl
@[simp] theorem withPending_readWord (target : ReadTarget) : (s.withPending l).readWord p target = s.readWord p target := rfl
@[simp] theorem withPending_inStage (e : EngineId) (stage : Stage) : (s.withPending l).inStage e stage = s.inStage e stage :=
  rfl

@[simp] theorem withPending_pass1Input (pages : List Page) (k : Nat) (w : WorkingValues) :
    (s.withPending l).pass1Input pages k w = s.pass1Input pages k w := rfl
@[simp] theorem withPending_pass2Input (pages : List Page) (k : Nat) (memory : List Nat) (w : WorkingValues) :
    (s.withPending l).pass2Input pages k memory w = s.pass2Input pages k memory w := rfl

@[simp] theorem withPending_primePermutation (pages : List Page) (pr : Params) :
    (s.withPending l).primePermutation pages pr = s.primePermutation pages pr := by
  unfold primePermutation
  cases pr.permSource <;> rfl

theorem withPending_firstHead (ports : List Port) : (s.withPending l).firstHead ports = s.firstHead ports := by
  induction ports with
  | nil => rfl
  | cons p ports ih => simp only [firstHead, withPending_queue, ih]

@[simp] theorem withPending_grantChoice : (s.withPending l).grantChoice = s.grantChoice := by
  simp only [grantChoice, withPending_firstHead]
  rfl

end reads

/-! ### The basic updates -/

section updates
variable (p : Port) (t : Tag)

@[simp] theorem withPending_modPort (f : PortUnit → PortUnit) :
    (s.withPending l).modPort p f = (s.modPort p f).withPending l := rfl
@[simp] theorem withPending_modEngine (e : EngineId) (f : Engine → Engine) :
    (s.withPending l).modEngine e f = (s.modEngine e f).withPending l := rfl
@[simp] theorem withPending_modQueue (f : List Tag → List Tag) :
    (s.withPending l).modQueue p f = (s.modQueue p f).withPending l := rfl
@[simp] theorem withPending_modJob (f : Job → Job) : (s.withPending l).modJob p t f = (s.modJob p t f).withPending l := rfl
@[simp] theorem withPending_setStatus (b : StatusBit) :
    (s.withPending l).setStatus p b = (s.setStatus p b).withPending l := rfl
@[simp] theorem withPending_answer (ans : BusAnswer) : (s.withPending l).answer p ans = (s.answer p ans).withPending l := rfl
@[simp] theorem withPending_respond (code : RespCode) (cmd : BitVec 8) (r1 r2 r3 : Word) :
    (s.withPending l).respond p code cmd t r1 r2 r3 = (s.respond p code cmd t r1 r2 r3).withPending l := rfl
@[simp] theorem withPending_pushNotice (n : Notice) :
    (s.withPending l).pushNotice p n = (s.pushNotice p n).withPending l := rfl
@[simp] theorem withPending_modChecker (f : Checker → Checker) :
    (s.withPending l).modChecker p f = (s.modChecker p f).withPending l := rfl
@[simp] theorem withPending_vacateSlot : (s.withPending l).vacateSlot p = (s.vacateSlot p).withPending l := rfl
@[simp] theorem withPending_createJob (r : OpenRecord) :
    (s.withPending l).createJob p r = (s.createJob p r).withPending l := rfl
@[simp] theorem withPending_deliver (o : Outcome) : (s.withPending l).deliver p t o = (s.deliver p t o).withPending l := rfl
@[simp] theorem withPending_respondCollected (pr : Params) (o : Outcome) :
    (s.withPending l).respondCollected p t pr o = (s.respondCollected p t pr o).withPending l := rfl
@[simp] theorem withPending_completionReport (e : EngineId) (j : Job) (po : PendingOutcome) :
    (s.withPending l).completionReport e j po = (s.completionReport e j po).withPending l := rfl

@[simp] theorem withPending_writeArea (pages : List Page) (o : Nat) (vs : List Byte) :
    (s.withPending l).writeArea pages o vs = (s.writeArea pages o vs).withPending l := by
  induction vs generalizing s o with
  | nil => rfl
  | cons v vs ih =>
    have hbyte : (s.withPending l).writeAreaByte pages o v = (s.writeAreaByte pages o v).withPending l := by
      unfold writeAreaByte
      cases pages[o / 1024]? <;> rfl
    rw [writeArea, hbyte, ih, writeArea]

@[simp] theorem withPending_freeJob (j : Job) : (s.withPending l).freeJob j = (s.freeJob j).withPending l := by
  rw [freeJob_eq_freed, freeJob_eq_freed]
  rfl

@[simp] theorem withPending_triggerJob : (s.withPending l).triggerJob p t = (s.triggerJob p t).withPending l := by
  unfold triggerJob
  rw [withPending_findJob]
  cases s.findJob p t with
  | none => rfl
  | some j =>
    dsimp only
    cases j.isStaging <;> rfl

end updates

/-! ### Stream words and commands -/

section commands
variable (p : Port) (t : Tag)

@[simp] theorem withPending_storeStreamWord (o : Nat) (w : Word) :
    (s.withPending l).storeStreamWord p t o w = (s.storeStreamWord p t o w).withPending l := by
  unfold storeStreamWord
  rw [withPending_findJob]
  cases s.findJob p t with
  | none => rfl
  | some j => exact withPending_writeArea ..

@[simp] theorem withPending_acceptStreamWord (st : Stream) (w : Word) :
    (s.withPending l).acceptStreamWord p t st w = (s.acceptStreamWord p t st w).withPending l := by
  simp only [acceptStreamWord, withPending_port, withPending_storeStreamWord, withPending_modChecker, withPending_triggerJob,
    apply_ite (withPending · l)]

@[simp] theorem withPending_streamWord (st : Stream) (w : Word) (good : Bool) :
    (s.withPending l).streamWord p st w good = (s.streamWord p st w good).withPending l := by
  unfold streamWord
  rw [withPending_port]
  cases (s.port p).slot with
  | none => cases good <;> rfl
  | some t =>
    simp only [withPending_modChecker, withPending_setStatus, withPending_acceptStreamWord, apply_ite (withPending · l)]

@[simp] theorem withPending_jobOpen : (s.withPending l).jobOpen p = (s.jobOpen p).withPending l := by
  unfold jobOpen
  simp only [withPending_openRecord, withPending_openAnswer]
  cases s.openAnswer p (s.openRecord p) <;> rfl

@[simp] theorem withPending_jobTrigger : (s.withPending l).jobTrigger p = (s.jobTrigger p).withPending l := by
  have hstaging : (s.withPending l).triggerStaging p (s.namedTag p) =
      (s.triggerStaging p (s.namedTag p)).withPending l := by
    unfold triggerStaging
    simp only [withPending_port, withPending_triggerJob]
    cases (s.port p).checker.triggerRefusal <;> rfl
  unfold jobTrigger
  simp only [withPending_namedTag, withPending_findJob]
  cases s.findJob p (s.namedTag p) with
  | none => rfl
  | some j =>
    obtain ⟨_, _, _, _, _, phase⟩ := j
    cases phase with
    | staging => exact hstaging
    | queued | decoding | aborting | held | delivering => rfl

@[simp] theorem withPending_jobAbort : (s.withPending l).jobAbort p = (s.jobAbort p).withPending l := by
  unfold jobAbort
  simp only [withPending_namedTag, withPending_findJob, withPending_freeJob]
  cases s.findJob p (s.namedTag p) with
  | none => rfl
  | some j =>
    obtain ⟨_, _, _, _, _, phase⟩ := j
    cases phase <;> rfl

@[simp] theorem withPending_jobCollect : (s.withPending l).jobCollect p = (s.jobCollect p).withPending l := by
  unfold jobCollect
  simp only [withPending_namedTag, withPending_findJob, withPending_port]
  cases s.findJob p (s.namedTag p) with
  | none => rfl
  | some j =>
    obtain ⟨_, _, _, _, _, phase⟩ := j
    cases phase with
    | held => cases (s.port p).window <;> rfl
    | staging | queued | decoding | aborting | delivering => rfl

@[simp] theorem withPending_jobRelease : (s.withPending l).jobRelease p = (s.jobRelease p).withPending l := by
  unfold jobRelease
  simp only [withPending_namedTag, withPending_findJob, withPending_freeJob]
  cases s.findJob p (s.namedTag p) with
  | none => rfl
  | some j =>
    obtain ⟨_, _, _, _, _, phase⟩ := j
    cases phase <;> rfl

@[simp] theorem withPending_jobQuery : (s.withPending l).jobQuery p = (s.jobQuery p).withPending l := by
  unfold jobQuery
  simp only [withPending_namedTag, withPending_findJob, withPending_port]
  cases s.findJob p (s.namedTag p) <;> rfl

@[simp] theorem withPending_portReset : (s.withPending l).portReset p = (s.portReset p).withPending l := by
  have hfold (jobs : List Job) (s : State) :
      jobs.foldl freeJob (s.withPending l) = (jobs.foldl freeJob s).withPending l := by
    induction jobs generalizing s with
    | nil => rfl
    | cons j jobs ih => rw [List.foldl_cons, List.foldl_cons, withPending_freeJob, ih]
  unfold portReset resetJobs
  rw [withPending_resetFrees, hfold]
  rfl

@[simp] theorem withPending_jobPortReset : (s.withPending l).jobPortReset p = (s.jobPortReset p).withPending l := by
  simp only [jobPortReset, withPending_resetFrees, withPending_portReset, withPending_abortingCount, withPending_respond]

@[simp] theorem withPending_takeCommand (code : BitVec 8) :
    (s.withPending l).takeCommand p code = (s.takeCommand p code).withPending l := by
  have hrefused : (s.withPending l).refuseCode p code = (s.refuseCode p code).withPending l := rfl
  simp only [takeCommand, withPending_jobOpen, withPending_jobTrigger, withPending_jobAbort, withPending_jobCollect,
    withPending_jobRelease, withPending_jobQuery, withPending_jobPortReset, hrefused, apply_ite (withPending · l)]

@[simp] theorem withPending_commandWrite (w : Word) (good : Bool) :
    (s.withPending l).commandWrite p w good = (s.commandWrite p w good).withPending l := by
  have hrefused (code : BitVec 8) :
      (s.withPending l).refuseParity p code good = (s.refuseParity p code good).withPending l := by cases good <;> rfl
  simp only [commandWrite, withPending_port, withPending_takeCommand, hrefused, apply_ite (withPending · l)]

end commands

/-! ### Accesses -/

@[simp] theorem withPending_performWrite (p : Port) (target : WriteTarget) (w : Word) (good : Bool) :
    (s.withPending l).performWrite p target w good = (s.performWrite p target w good).withPending l := by
  cases target with
  | cmd => exact withPending_commandWrite ..
  | stream => exact withPending_streamWord ..
  | settings | statusSet | statusClear | enableSet | enableClear | param | stray => cases good <;> rfl

@[simp] theorem withPending_writeAccess (p : Port) (a : WordAddr) (w : Word) (bus : WriteParity) :
    (s.withPending l).writeAccess p a w bus = (s.writeAccess p a w bus).withPending l := by
  simp only [writeAccess, withPending_portClosed, withPending_answer, withPending_setStatus, withPending_performWrite,
    apply_ite (withPending · l)]

@[simp] theorem withPending_performRead (p : Port) (target : ReadTarget) :
    (s.withPending l).performRead p target = (s.performRead p target).withPending l := by
  unfold performRead
  cases target with
  | notice =>
    simp only [withPending_port]
    cases (s.port p).notices <;> rfl
  | window o =>
    simp only [withPending_windowWord]
    cases s.windowWord p o <;> rfl
  | ident | settings | status | enable | enabledStatus | param | resp | stray => rfl

@[simp] theorem withPending_readAccess (p : Port) (a : WordAddr) (par : Bool) :
    (s.withPending l).readAccess p a par = (s.readAccess p a par).withPending l := by
  simp only [readAccess, withPending_portClosed, withPending_answer, withPending_setStatus, withPending_performRead,
    apply_ite (withPending · l)]

/-! ### The dispatcher, the engines and the timer -/

@[simp] theorem withPending_grant : (s.withPending l).grant = s.grant.withPending l := by
  have hgrantTo (e : EngineId) (p : Port) (t : Tag) :
      (s.withPending l).grantTo e p t = (s.grantTo e p t).withPending l := by
    unfold grantTo
    rw [withPending_findJob]
    cases s.findJob p t with
    | none => rfl
    | some j =>
      dsimp only
      cases j.isQueued <;> rfl
  unfold grant
  simp only [withPending_deviceReset, withPending_grantChoice, hgrantTo]
  cases s.deviceReset with
  | true => rfl
  | false => cases s.grantChoice <;> rfl

/-- A boundary does not see the waiting commands when its way on does not (R91). -/
theorem withPending_boundary (e : EngineId) (j : Job) {proceed : State → State}
    (hproceed : ∀ s : State, proceed (s.withPending l) = (proceed s).withPending l) :
    (s.withPending l).boundary e j proceed = (s.boundary e j proceed).withPending l := by
  cases habort : j.abortRequested with
  | true =>
    rw [boundary_yes habort, boundary_yes habort, withPending_modEngine]
    simp only [abortReport, withPending_freeJob, withPending_modEngine, withPending_pushNotice]
  | false => rw [boundary_no habort, boundary_no habort, withPending_modEngine, hproceed]

theorem withPending_boundary_stage (e : EngineId) (j : Job) (next : Engine → Engine) :
    (s.withPending l).boundary e j (fun t => t.modEngine e next) =
      (s.boundary e j fun t => t.modEngine e next).withPending l :=
  withPending_boundary s l e j fun _ => rfl

@[simp] theorem withPending_endOfPrime (e : EngineId) : (s.withPending l).endOfPrime e = (s.endOfPrime e).withPending l := by
  unfold endOfPrime
  rw [withPending_inStage]
  cases s.inStage e .prime with
  | none => rfl
  | some job =>
    obtain ⟨j, pr⟩ := job
    simp only [withPending_primePermutation, withPending_modEngine]
    exact withPending_boundary_stage _ l e j _

@[simp] theorem withPending_endOfPass1 (e : EngineId) : (s.withPending l).endOfPass1 e = (s.endOfPass1 e).withPending l := by
  unfold endOfPass1
  rw [withPending_inStage]
  cases s.inStage e .pass1 with
  | none => rfl
  | some job =>
    obtain ⟨j, pr⟩ := job
    simp only [withPending_pass1Input, withPending_engine, withPending_modEngine]
    exact withPending_boundary_stage _ l e j _

@[simp] theorem withPending_endOfPass2 (e : EngineId) : (s.withPending l).endOfPass2 e = (s.endOfPass2 e).withPending l := by
  unfold endOfPass2
  rw [withPending_inStage]
  cases s.inStage e .pass2 with
  | none => rfl
  | some job =>
    obtain ⟨j, pr⟩ := job
    simp only [withPending_pass2Input, withPending_engine, withPending_modEngine]
    exact withPending_boundary_stage _ l e j _

@[simp] theorem withPending_endOfEvaluate (e : EngineId) :
    (s.withPending l).endOfEvaluate e = (s.endOfEvaluate e).withPending l := by
  unfold endOfEvaluate
  rw [withPending_inStage]
  cases s.inStage e .evaluate <;> rfl

@[simp] theorem withPending_endOfStore (e : EngineId) : (s.withPending l).endOfStore e = (s.endOfStore e).withPending l := by
  unfold endOfStore
  rw [withPending_inStage, withPending_engine]
  cases s.inStage e .store with
  | none => rfl
  | some job =>
    obtain ⟨j, pr⟩ := job
    cases (s.engine e).pending with
    | none => rfl
    | some po =>
      dsimp only
      rw [withPending_writeArea]
      exact withPending_boundary _ l e j fun _ => rfl

@[simp] theorem withPending_tickOnce : (s.withPending l).tickOnce = s.tickOnce.withPending l := by
  unfold tickOnce
  rw [withPending_deviceReset]
  cases s.deviceReset <;> rfl

@[simp] theorem withPending_expireJob (p : Port) (t : Tag) :
    (s.withPending l).expireJob p t = (s.expireJob p t).withPending l := by
  unfold expireJob
  rw [withPending_findJob]
  cases s.findJob p t with
  | none => rfl
  | some j =>
    simp only [withPending_deviceReset, withPending_tick, withPending_freeJob, withPending_pushNotice,
      apply_ite (withPending · l)]

@[simp] theorem withPending_releaseDeviceReset (prof1 prof0 : Bool) :
    (s.withPending l).releaseDeviceReset prof1 prof0 = (s.releaseDeviceReset prof1 prof0).withPending l := by
  unfold releaseDeviceReset
  rw [withPending_deviceReset]
  cases s.deviceReset <;> rfl

@[simp] theorem withPending_assertResetLine (p : Port) (held : Bool) :
    (s.withPending l).assertResetLine p held = (s.assertResetLine p held).withPending l := by
  simp only [assertResetLine, withPending_portReset, withPending_modPort]

theorem withPending_deviceResetWith (units : PerPort PortUnit) :
    (s.withPending l).deviceResetWith units = (s.deviceResetWith units).withPending l := by
  simp only [deviceResetWith, withPending]

@[simp] theorem withPending_assertDeviceReset (held : PerPort Bool) :
    (s.withPending l).assertDeviceReset held = (s.assertDeviceReset held).withPending l :=
  s.withPending_deviceResetWith l _

@[simp] theorem withPending_powerOn : (s.withPending l).powerOn = s.powerOn.withPending l :=
  s.withPending_deviceResetWith l _

end State

/-! ### The rows -/

/-- The next state that a row answers, and the same beside other waiting commands. -/
theorem exec_withPending (c : Instr) (s : State) :
    ∃ t, exec c s = .next t ∧ ∀ l, exec c (s.withPending l) = .next (t.withPending l) := by
  have hnext {f : State → State} (hf : ∀ l, f (s.withPending l) = (f s).withPending l)
      (hexec : ∀ s, exec c s = .next (f s)) : ∃ t, exec c s = .next t ∧ ∀ l, exec c (s.withPending l) =
        .next (t.withPending l) := ⟨f s, hexec s, fun l => (hexec _).trans (congrArg Host.Outcome.next (hf l))⟩
  cases c with
  | openJob | trigger | abort | collect | release | query | portReset | badCommand | streamWord | paramWrite
  | settingsWrite | statusSet | statusClear | enableSet | enableClear | strayWrite =>
    exact hnext (s.withPending_writeAccess · ..) fun _ => rfl
  | noticeRead | resultWindowRead | strayRead => exact hnext (s.withPending_readAccess · ..) fun _ => rfl
  | grant => exact hnext s.withPending_grant fun _ => rfl
  | endOfPrime e => exact hnext (s.withPending_endOfPrime · e) fun _ => rfl
  | endOfPass1 e => exact hnext (s.withPending_endOfPass1 · e) fun _ => rfl
  | endOfPass2 e => exact hnext (s.withPending_endOfPass2 · e) fun _ => rfl
  | endOfEvaluate e => exact hnext (s.withPending_endOfEvaluate · e) fun _ => rfl
  | endOfStore e => exact hnext (s.withPending_endOfStore · e) fun _ => rfl
  | tick => exact hnext s.withPending_tickOnce fun _ => rfl
  | expiry p tag => exact hnext (s.withPending_expireJob · p tag) fun _ => rfl
  | deviceReset held => exact hnext (s.withPending_assertDeviceReset · held) fun _ => rfl
  | powerOn => exact hnext s.withPending_powerOn fun _ => rfl
  | deviceResetRelease prof1 prof0 => exact hnext (s.withPending_releaseDeviceReset · prof1 prof0) fun _ => rfl
  | portResetLineAssertion p held => exact hnext (s.withPending_assertResetLine · p held) fun _ => rfl
  | portResetLineRelease p => exact hnext (f := (·.releaseResetLine p)) (fun _ => rfl) fun _ => rfl

/-- Settles O2: a row's next state beside the state's own waiting commands is the row's next state. -/
theorem everyCommandCompletes : Obligations.EveryCommandCompletes := by
  intro c s
  obtain ⟨t, hexec, hwaiting⟩ := exec_withPending c s
  refine ⟨t, hexec, ?_, hwaiting⟩
  have hself : exec c s = .next (t.withPending s.pending) := hwaiting s.pending
  have heq : t = t.withPending s.pending := Host.Outcome.next.inj (hexec.symm.trans hself)
  rw [heq]
  rfl

end Sys2Proof.Machine
end
